-- ==== Sys2Proof/Word.lean ====
section
/-! DEFINITION. The word types of the block. -/

namespace Sys2Proof

/-- A 32-bit unsigned value: a command, the millisecond clock, an edge count as read (R5). -/
abbrev Word := BitVec 32

/-- A value of the tick counter. `TICK_W` is 16 or 32 (R6); a value is held in 32 bits and every
operation that makes one reduces it modulo `2 ^ TICK_W` (log entry 19). -/
abbrev Tick := BitVec 32

/-- One segment of a waveform: the carrier's level and its length in ticks (R115). -/
abbrev Segment := Bool × Nat

end Sys2Proof
end

