-- ==== Sys2Proof/Config.lean ====
section
/-! DEFINITION. The parameters of the block (R5, R6) and the free values: what the spec leaves open,
as constants without a body. The default values and the check of R7 are in Machine/Parameters.lean. -/

namespace Sys2Proof

/-- `EDGE_CAP`, the capacity of the edge buffer (R5). -/
abbrev edgeCap : Nat := 67

/-- `FRAME_BITS`, the data bits of a command frame (R5). -/
abbrev frameBits : Nat := 32

/-- `TICK_W`: 16 or 32, nothing else (R6; R7 clause (a) holds by the type). -/
inductive TickWidth
  | w16
  | w32
  deriving DecidableEq, Repr

/-- A closed interval of tick counts `[lo, hi]` (R14, R153). -/
structure Window where
  lo : Nat
  hi : Nat
  deriving DecidableEq, Repr

/-- The implementation parameters of R6. They are fixed before reset and no operation changes them (R38). -/
structure Params where
  tickW : TickWidth
  /-- `TICK_PERIOD` in nanoseconds. -/
  tickPeriodNs : Nat
  rxTimeoutMs : Nat
  txPrologueOn : Nat
  txPrologueOff : Nat
  txSym0On : Nat
  txSym0Off : Nat
  txSym1On : Nat
  txSym1Off : Nat
  txEpilogueOn : Nat
  txEpilogueOff : Nat
  wLeadOn : Window
  wLeadOff : Window
  wRepOff : Window
  wBitOn : Window
  wBit0Off : Window
  wBit1Off : Window
  /-- `CARRIER_HZ`: OPEN, used by no rule; `none` says that no value is fixed (U6). -/
  carrierHz : Option Nat
  /-- `CARRIER_DUTY`: OPEN, used by no rule (U6). -/
  carrierDuty : Option Nat
  abortClearsCode : Bool
  deriving DecidableEq, Repr

/-- What the environment may do next (R68): an event of a clock or of the input line, a word put on
the host's operation port, or the platform's RESET (R320). -/
inductive EnvStep
  | tick
  | mstick
  | edge
  | host (word : BitVec 36)
  | reset
  deriving DecidableEq, Repr, Inhabited

/-- The environment's choices, one for each step it is asked (R69: "Which agent steps next is not
determined by the block"). A free value: no body (log entry 8). -/
opaque Config.environment : Nat → EnvStep

/-- The contents of an edge-buffer entry that nothing has written since clear number `era` (U12): a
free value of the era and the index (log entry 6). -/
opaque Config.unspecifiedEntry : Nat → Nat → BitVec 32

/-- Free durations, for the intervals of a repetition frame that the spec bounds or leaves open
(R91; log entry 18). -/
opaque Config.freeTicks : Nat → Nat

/-- The tick counter after a RESET event (R323, U13): a free value (log entry 7). -/
opaque Config.resetTick : Nat → BitVec 32

/-- The millisecond clock after a RESET event (R323, U14): a free value (log entry 7). -/
opaque Config.resetMs : Nat → BitVec 32

end Sys2Proof
end

