-- ==== Sys2Proof/Syntax.lean ====
section
/-! DEFINITION. The syntax: the nine classes of spec/opcode_table.json (R113), the operands, and one
constructor per row. -/

namespace Sys2Proof

/-- The classes of the operation table (R113). -/
inductive Format
  | hostop
  | decT
  | rxfT
  | txT
  | wire
  | event
  | prim
  | fsmop
  | intop
  deriving DecidableEq, Repr

/-- The three FSM instances (R28, R130): "one instance per protocol role". -/
inductive FsmId
  | framer
  | decoder
  | transmitter
  deriving DecidableEq, Repr

/-- The table operand of `FSM.INIT` (R133): the instance's own constant table (R138), or a table whose
first row is the sentinel. -/
inductive TableArg
  | own
  | empty
  deriving DecidableEq, Repr

/-- On which side of the medium a wire symbol is taken: sent by the transmitter's burst (R90, "produced
by"), or arriving at the receiver's input line (R93, R242). Log entry 17. -/
inductive WireSide
  | send
  | receive
  deriving DecidableEq, Repr

/-- One constructor per row of spec/opcode_table.json, in the table's order. -/
inductive Instr
  -- HOSTOP (R111)
  | rxFire
  | rxSeten (b : Bool)
  | rxGetcode
  | rxGetrep
  | rxGeterr
  | rxResetcode
  | rxIsactive
  | txFire
  | txSetcode (c : BitVec 32)
  | txIsactive
  -- DEC_T (R157)
  | t1
  | t2
  | t3
  | t4
  | t5
  | t6
  | t7
  | t8
  | t9
  | t10
  | t11
  -- RXF_T (R191)
  | f1
  | f2
  | f3
  | f4
  | f5
  | f6
  -- TX_T (R233)
  | x1
  -- WIRE (R90, R91, R92)
  | prologue (side : WireSide)
  | sym0 (side : WireSide)
  | sym1 (side : WireSide)
  | epilogue (side : WireSide)
  | repeatFrame
  -- EVENT (R261, R262, R263)
  | tick
  | mstick
  | edge
  -- PRIM (R264 to R272)
  | nowMillis
  | currentTick
  | startTimer
  | stopTimer
  | setCarrier (on : Bool)
  | getEdgeCount
  | getEdgeBuffer
  | clearEdgeBuffer
  | enableCapture (b : Bool)
  -- FSMOP (R132, R133, R134)
  | fsmInit (m : FsmId) (t : TableArg)
  | fsmFire (m : FsmId)
  | fsmDestroy (m : FsmId)
  -- INTOP (R150, R234, R235)
  | decRun (n : BitVec 32)
  | txEncode (c : BitVec 32)
  | txBurst (on off : BitVec 32)
  deriving DecidableEq, Repr

end Sys2Proof
end

