-- ==== Sys2Proof/WellFormed.lean ====
section
/-! DEFINITION. Which instructions the spec admits: the operand ranges of R150, R234 and R235. Every
other operand is a whole value with no illegal setting (R37). -/

namespace Sys2Proof

/-- The operand checks: `n` of `DEC.RUN` at most `EDGE_CAP` (R150); `c` of `TX.ENCODE` nonzero (R234,
R105); both counts of `TX.BURST` at least 1 (R235). -/
def Instr.wellFormed : Instr → Bool
  | .decRun n => decide (n.toNat ≤ edgeCap)
  | .txEncode c => decide (c ≠ 0)
  | .txBurst on off => decide (on ≠ 0) && decide (off ≠ 0)
  | .rxFire | .rxSeten _ | .rxGetcode | .rxGetrep | .rxGeterr | .rxResetcode | .rxIsactive
  | .txFire | .txSetcode _ | .txIsactive
  | .t1 | .t2 | .t3 | .t4 | .t5 | .t6 | .t7 | .t8 | .t9 | .t10 | .t11
  | .f1 | .f2 | .f3 | .f4 | .f5 | .f6 | .x1
  | .prologue _ | .sym0 _ | .sym1 _ | .epilogue _ | .repeatFrame
  | .tick | .mstick | .edge
  | .nowMillis | .currentTick | .startTimer | .stopTimer | .setCarrier _ | .getEdgeCount
  | .getEdgeBuffer | .clearEdgeBuffer | .enableCapture _
  | .fsmInit _ _ | .fsmFire _ | .fsmDestroy _ => true

end Sys2Proof
end

