-- ==== Sys2Proof/Decode.lean ====
section
/-! DEFINITION. The words of the operations and their decoding. The block fetches no instruction words
(R28); what stands here are the 36-bit host operation word of R110 and R111 and the class-local codes of
R113. Those codes are unique only inside their class, so a slot names its class beside its code, and the
operands that the table gives no bits follow in two operand words (log entry 9). -/

namespace Sys2Proof

/-- One operation as it is presented to the block: its class (R113), its code in that class (the whole
36-bit word for a host operation, R110), and two operand words. -/
structure Slot where
  fmt : Format
  code : BitVec 36
  arg0 : BitVec 32
  arg1 : BitVec 32
  deriving DecidableEq, Repr

/-- Why a slot spells no operation. -/
inductive Reject
  /-- A host operation word whose `op` is 7 or 11 to 15 (R108, U9). -/
  | undefinedHostOp (op : BitVec 4)
  /-- A code that no row of the class has (R113). -/
  | unknownCode (fmt : Format)
  /-- An operand word outside the values its operand has (R150, R234, R235; log entry 9). -/
  | badOperand (fmt : Format)
  /-- An operand word that the operation does not have, and that is not zero (log entry 9). -/
  | strayOperand (fmt : Format)
  deriving DecidableEq, Repr

/-- Bits 35 to 32 of a host operation word (R110). -/
def hostOp (w : BitVec 36) : BitVec 4 := w.extractLsb' 32 4

/-- Bits 31 to 0 of a host operation word (R110). -/
def hostArg (w : BitVec 36) : BitVec 32 := w.extractLsb' 0 32

/-- The 36-bit host operation word with these two fields (R110). -/
def hostWord (op : BitVec 4) (arg : BitVec 32) : BitVec 36 := op ++ arg

/-- The host operation a word spells (R111): argument bits an operation does not use are ignored (R108). -/
def decodeHost (w : BitVec 36) : Except Reject Instr :=
  match (hostOp w).toNat with
  | 0 => .ok .rxFire
  | 1 => .ok (.rxSeten ((hostArg w).getLsbD 0))
  | 2 => .ok .rxGetcode
  | 3 => .ok .rxGetrep
  | 4 => .ok .rxGeterr
  | 5 => .ok .rxResetcode
  | 6 => .ok .rxIsactive
  | 8 => .ok .txFire
  | 9 => .ok (.txSetcode (hostArg w))
  | 10 => .ok .txIsactive
  | _ => .error (.undefinedHostOp (hostOp w))

/-- An operation without operand words. -/
def Slot.plain (sl : Slot) (i : Instr) : Except Reject Instr :=
  if sl.arg0 = 0 ∧ sl.arg1 = 0 then .ok i else .error (.strayOperand sl.fmt)

/-- An operation with one operand word, read by `f`. -/
def Slot.oneOperand {α : Type} (sl : Slot) (f : BitVec 32 → Option α) (i : α → Instr) : Except Reject Instr :=
  if sl.arg1 = 0 then
    match f sl.arg0 with
    | some a => .ok (i a)
    | none => .error (.badOperand sl.fmt)
  else .error (.strayOperand sl.fmt)

/-- A boolean operand word: 0 or 1 (R110 gives the same numbers to a boolean result). -/
def boolOperand (w : BitVec 32) : Option Bool :=
  match w.toNat with
  | 0 => some false
  | 1 => some true
  | _ => none

/-- The side operand of a wire symbol: 0 sends, 1 receives (log entry 17). -/
def sideOperand (w : BitVec 32) : Option WireSide :=
  match w.toNat with
  | 0 => some .send
  | 1 => some .receive
  | _ => none

/-- The instance operand of an engine operation, in the order host-side framer, decoder, transmitter
(log entry 9). -/
def fsmOperand (w : BitVec 32) : Option FsmId :=
  match w.toNat with
  | 0 => some .framer
  | 1 => some .decoder
  | 2 => some .transmitter
  | _ => none

/-- The table operand of `FSM.INIT` (log entry 24). -/
def tableOperand (w : BitVec 32) : Option TableArg :=
  match w.toNat with
  | 0 => some .own
  | 1 => some .empty
  | _ => none

/-- The edge count operand of `DEC.RUN` (R150). -/
def countOperand (w : BitVec 32) : Option (BitVec 32) :=
  if w.toNat ≤ edgeCap then some w else none

/-- A nonzero operand: the command of `TX.ENCODE` (R234). -/
def nonzeroOperand (w : BitVec 32) : Option (BitVec 32) :=
  if w ≠ 0 then some w else none

/-- Class `DEC_T` (R113, R158 to R168): from-state number, then priority. -/
def decodeDecT (sl : Slot) : Except Reject Instr :=
  match sl.code.toNat with
  | 0b0000 => sl.plain .t1
  | 0b0001 => sl.plain .t2
  | 0b0100 => sl.plain .t3
  | 0b0101 => sl.plain .t4
  | 0b0110 => sl.plain .t5
  | 0b1000 => sl.plain .t6
  | 0b1001 => sl.plain .t7
  | 0b1010 => sl.plain .t8
  | 0b1100 => sl.plain .t9
  | 0b1101 => sl.plain .t10
  | 0b1110 => sl.plain .t11
  | _ => .error (.unknownCode sl.fmt)

/-- Class `RXF_T` (R113, R192 to R197). -/
def decodeRxfT (sl : Slot) : Except Reject Instr :=
  match sl.code.toNat with
  | 0b0000 => sl.plain .f1
  | 0b0100 => sl.plain .f2
  | 0b0101 => sl.plain .f3
  | 0b1000 => sl.plain .f4
  | 0b1001 => sl.plain .f5
  | 0b1010 => sl.plain .f6
  | _ => .error (.unknownCode sl.fmt)

/-- Class `TX_T` (R113, R233). -/
def decodeTxT (sl : Slot) : Except Reject Instr :=
  match sl.code.toNat with
  | 0 => sl.plain .x1
  | _ => .error (.unknownCode sl.fmt)

/-- Class `WIRE` (R113). -/
def decodeWire (sl : Slot) : Except Reject Instr :=
  match sl.code.toNat with
  | 0b000 => sl.oneOperand sideOperand .prologue
  | 0b001 => sl.oneOperand sideOperand .sym0
  | 0b010 => sl.oneOperand sideOperand .sym1
  | 0b011 => sl.oneOperand sideOperand .epilogue
  | 0b100 => sl.plain .repeatFrame
  | _ => .error (.unknownCode sl.fmt)

/-- Class `EVENT` (R113). -/
def decodeEvent (sl : Slot) : Except Reject Instr :=
  match sl.code.toNat with
  | 0b00 => sl.plain .tick
  | 0b01 => sl.plain .mstick
  | 0b10 => sl.plain .edge
  | _ => .error (.unknownCode sl.fmt)

/-- Class `PRIM` (R113): 0 to 8 in the order of R264 to R272. -/
def decodePrim (sl : Slot) : Except Reject Instr :=
  match sl.code.toNat with
  | 0b0000 => sl.plain .nowMillis
  | 0b0001 => sl.plain .currentTick
  | 0b0010 => sl.plain .startTimer
  | 0b0011 => sl.plain .stopTimer
  | 0b0100 => sl.oneOperand boolOperand .setCarrier
  | 0b0101 => sl.plain .getEdgeCount
  | 0b0110 => sl.plain .getEdgeBuffer
  | 0b0111 => sl.plain .clearEdgeBuffer
  | 0b1000 => sl.oneOperand boolOperand .enableCapture
  | _ => .error (.unknownCode sl.fmt)

/-- Class `FSMOP` (R113). -/
def decodeFsmop (sl : Slot) : Except Reject Instr :=
  match sl.code.toNat with
  | 0b00 =>
    match fsmOperand sl.arg0, tableOperand sl.arg1 with
    | some m, some t => .ok (.fsmInit m t)
    | _, _ => .error (.badOperand sl.fmt)
  | 0b01 => sl.oneOperand fsmOperand .fsmFire
  | 0b10 => sl.oneOperand fsmOperand .fsmDestroy
  | _ => .error (.unknownCode sl.fmt)

/-- Class `INTOP` (R113). -/
def decodeIntop (sl : Slot) : Except Reject Instr :=
  match sl.code.toNat with
  | 0b00 => sl.oneOperand countOperand .decRun
  | 0b01 => sl.oneOperand nonzeroOperand .txEncode
  | 0b10 =>
    if sl.arg0 ≠ 0 ∧ sl.arg1 ≠ 0 then .ok (.txBurst sl.arg0 sl.arg1) else .error (.badOperand sl.fmt)
  | _ => .error (.unknownCode sl.fmt)

/-- The decoder: total, and every rejection has a name. -/
def decode (sl : Slot) : Except Reject Instr :=
  match sl.fmt with
  | .hostop => if sl.arg0 = 0 ∧ sl.arg1 = 0 then decodeHost sl.code else .error (.strayOperand sl.fmt)
  | .decT => decodeDecT sl
  | .rxfT => decodeRxfT sl
  | .txT => decodeTxT sl
  | .wire => decodeWire sl
  | .event => decodeEvent sl
  | .prim => decodePrim sl
  | .fsmop => decodeFsmop sl
  | .intop => decodeIntop sl

/-- A boolean as a word: true is 1, false is 0 (R110). -/
def boolWord (b : Bool) : BitVec 32 := if b then 1 else 0

/-- The side of a wire symbol as an operand word. -/
def sideWord : WireSide → BitVec 32
  | .send => 0
  | .receive => 1

/-- An FSM instance as an operand word. -/
def fsmWord : FsmId → BitVec 32
  | .framer => 0
  | .decoder => 1
  | .transmitter => 2

/-- A table argument as an operand word. -/
def tableWord : TableArg → BitVec 32
  | .own => 0
  | .empty => 1

/-- The slot of an operation, from the codes of R111 and R113. -/
def encode : Instr → Slot
  | .rxFire => ⟨.hostop, hostWord 0 0, 0, 0⟩
  | .rxSeten b => ⟨.hostop, hostWord 1 (boolWord b), 0, 0⟩
  | .rxGetcode => ⟨.hostop, hostWord 2 0, 0, 0⟩
  | .rxGetrep => ⟨.hostop, hostWord 3 0, 0, 0⟩
  | .rxGeterr => ⟨.hostop, hostWord 4 0, 0, 0⟩
  | .rxResetcode => ⟨.hostop, hostWord 5 0, 0, 0⟩
  | .rxIsactive => ⟨.hostop, hostWord 6 0, 0, 0⟩
  | .txFire => ⟨.hostop, hostWord 8 0, 0, 0⟩
  | .txSetcode c => ⟨.hostop, hostWord 9 c, 0, 0⟩
  | .txIsactive => ⟨.hostop, hostWord 10 0, 0, 0⟩
  | .t1 => ⟨.decT, 0b0000, 0, 0⟩
  | .t2 => ⟨.decT, 0b0001, 0, 0⟩
  | .t3 => ⟨.decT, 0b0100, 0, 0⟩
  | .t4 => ⟨.decT, 0b0101, 0, 0⟩
  | .t5 => ⟨.decT, 0b0110, 0, 0⟩
  | .t6 => ⟨.decT, 0b1000, 0, 0⟩
  | .t7 => ⟨.decT, 0b1001, 0, 0⟩
  | .t8 => ⟨.decT, 0b1010, 0, 0⟩
  | .t9 => ⟨.decT, 0b1100, 0, 0⟩
  | .t10 => ⟨.decT, 0b1101, 0, 0⟩
  | .t11 => ⟨.decT, 0b1110, 0, 0⟩
  | .f1 => ⟨.rxfT, 0b0000, 0, 0⟩
  | .f2 => ⟨.rxfT, 0b0100, 0, 0⟩
  | .f3 => ⟨.rxfT, 0b0101, 0, 0⟩
  | .f4 => ⟨.rxfT, 0b1000, 0, 0⟩
  | .f5 => ⟨.rxfT, 0b1001, 0, 0⟩
  | .f6 => ⟨.rxfT, 0b1010, 0, 0⟩
  | .x1 => ⟨.txT, 0b00, 0, 0⟩
  | .prologue d => ⟨.wire, 0b000, sideWord d, 0⟩
  | .sym0 d => ⟨.wire, 0b001, sideWord d, 0⟩
  | .sym1 d => ⟨.wire, 0b010, sideWord d, 0⟩
  | .epilogue d => ⟨.wire, 0b011, sideWord d, 0⟩
  | .repeatFrame => ⟨.wire, 0b100, 0, 0⟩
  | .tick => ⟨.event, 0b00, 0, 0⟩
  | .mstick => ⟨.event, 0b01, 0, 0⟩
  | .edge => ⟨.event, 0b10, 0, 0⟩
  | .nowMillis => ⟨.prim, 0b0000, 0, 0⟩
  | .currentTick => ⟨.prim, 0b0001, 0, 0⟩
  | .startTimer => ⟨.prim, 0b0010, 0, 0⟩
  | .stopTimer => ⟨.prim, 0b0011, 0, 0⟩
  | .setCarrier b => ⟨.prim, 0b0100, boolWord b, 0⟩
  | .getEdgeCount => ⟨.prim, 0b0101, 0, 0⟩
  | .getEdgeBuffer => ⟨.prim, 0b0110, 0, 0⟩
  | .clearEdgeBuffer => ⟨.prim, 0b0111, 0, 0⟩
  | .enableCapture b => ⟨.prim, 0b1000, boolWord b, 0⟩
  | .fsmInit m t => ⟨.fsmop, 0b00, fsmWord m, tableWord t⟩
  | .fsmFire m => ⟨.fsmop, 0b01, fsmWord m, 0⟩
  | .fsmDestroy m => ⟨.fsmop, 0b10, fsmWord m, 0⟩
  | .decRun n => ⟨.intop, 0b00, n, 0⟩
  | .txEncode c => ⟨.intop, 0b01, c, 0⟩
  | .txBurst on off => ⟨.intop, 0b10, on, off⟩

/-- How many bits the class's codes have (R113). -/
def Format.width : Format → Nat
  | .hostop => 36
  | .decT => 4
  | .rxfT => 4
  | .txT => 2
  | .wire => 3
  | .event => 2
  | .prim => 4
  | .fsmop => 2
  | .intop => 2

/-- Which class a bare table word is read in. The classes other than `HOSTOP` share their codes, and a
bare word names no class: a code of two bits is read as an `EVENT`, one of three bits as a `WIRE`
symbol, one of four bits as a `DEC_T` row or else a `PRIM`; in whole bytes, an `EVENT` code, else a
`DEC_T` code, else a `PRIM` code (log entry 10). -/
def tableFormat (nbits w : Nat) : Format :=
  if 32 < nbits then .hostop
  else if nbits = 2 then .event
  else if nbits = 3 then .wire
  else if nbits ≠ 4 ∧ w ≤ 2 then .event
  else if w ∈ [0b0010, 0b0011, 0b0111] then .prim
  else .decT

/-- The slot of a bare table word, with operand words of zeros. -/
def tableSlot (nbits w : Nat) : Option Slot :=
  if w < 2 ^ 36 then some ⟨tableFormat nbits w, BitVec.ofNat 36 w, 0, 0⟩ else none

/-- The instruction the decoder reads from a bare word of the operation table. -/
def decodeTableWord (nbits w : Nat) : Option Instr :=
  match tableSlot nbits w with
  | some sl => (decode sl).toOption
  | none => none

end Sys2Proof
end

