-- ==== Sys2Proof/Machine/Parameters.lean ====
section
/-! DEFINITION. The default parameters (R6) and the well-formedness of a parameter set (R7). -/

namespace Sys2Proof.Machine

/-- `2 ^ TICK_W`. -/
def tickModulus : TickWidth → Nat
  | .w16 => 2 ^ 16
  | .w32 => 2 ^ 32

/-- `lo <= n <= hi`, both ends inclusive (R153). -/
def within (n : Nat) (w : Window) : Bool := decide (w.lo ≤ n) && decide (n ≤ w.hi)

/-- The window of ±25 % around a nominal count, both bounds rounded inward (R96, D7). -/
def tolerance (nominal : Nat) : Window := ⟨(3 * nominal + 3) / 4, 5 * nominal / 4⟩

/-- The defaults of R6 (D4 to D7, D10). `RX_TIMEOUT_MS` is OPEN; 20 is the value of the spec's vectors
(log entry 2). -/
def defaultParams : Params where
  tickW := .w16
  tickPeriodNs := 56250
  rxTimeoutMs := 20
  txPrologueOn := 160
  txPrologueOff := 80
  txSym0On := 10
  txSym0Off := 10
  txSym1On := 10
  txSym1Off := 30
  txEpilogueOn := 10
  txEpilogueOff := 3560
  wLeadOn := ⟨120, 200⟩
  wLeadOff := ⟨60, 100⟩
  wRepOff := ⟨30, 50⟩
  wBitOn := ⟨8, 12⟩
  wBit0Off := ⟨8, 12⟩
  wBit1Off := ⟨23, 37⟩
  carrierHz := none
  carrierDuty := none
  abortClearsCode := false

/-- A transmit count: at least 1 and less than `2 ^ TICK_W` (R7 clause (b)). -/
def countOk (w : TickWidth) (n : Nat) : Bool := decide (1 ≤ n) && decide (n < tickModulus w)

/-- A window: `0 <= lo <= hi < 2 ^ TICK_W` (R7 clause (c)). -/
def windowOk (w : TickWidth) (v : Window) : Bool := decide (v.lo ≤ v.hi) && decide (v.hi < tickModulus w)

/-- The nominal repetition gap, 2.25 ms, in ticks: 40 at the default time base (R8, R95). -/
def nominalRepOff (cfg : Params) : Nat := 2250000 / cfg.tickPeriodNs

/-- The well-formedness of a parameter set (R7 clauses (b) to (e); clause (a) holds by the type). In
clause (e) the nominal repetition gap is taken at the set's own time base (log entry 21). -/
def paramsOk (cfg : Params) : Bool :=
  ([cfg.txPrologueOn, cfg.txPrologueOff, cfg.txSym0On, cfg.txSym0Off, cfg.txSym1On, cfg.txSym1Off,
      cfg.txEpilogueOn, cfg.txEpilogueOff].all (countOk cfg.tickW))
    && ([cfg.wLeadOn, cfg.wLeadOff, cfg.wRepOff, cfg.wBitOn, cfg.wBit0Off, cfg.wBit1Off].all
      (windowOk cfg.tickW))
    && within cfg.txPrologueOn cfg.wLeadOn
    && within cfg.txPrologueOff cfg.wLeadOff
    && within cfg.txSym0On cfg.wBitOn
    && within cfg.txSym1On cfg.wBitOn
    && within cfg.txEpilogueOn cfg.wBitOn
    && within cfg.txSym0Off cfg.wBit0Off
    && within cfg.txSym1Off cfg.wBit1Off
    && !within cfg.txSym1Off cfg.wBit0Off
    && !within (nominalRepOff cfg) cfg.wLeadOff

end Sys2Proof.Machine
end

