-- ==== Sys2Proof/Machine/State.lean ====
section
/-! DEFINITION. The state of the block (10_state.md), its faults and refusals, and the state after reset. -/

namespace Sys2Proof.Machine

/-- The framer's states (R190). -/
inductive RxState
  | off
  | idle
  | wait
  deriving DecidableEq, Repr

/-- The transmitter's single state (R230). -/
inductive TxState
  | waiting
  deriving DecidableEq, Repr

/-- The decoder's states (R28, R152). -/
inductive DecState
  | idle
  | init
  | symbolSilence
  | symbolPulse
  deriving DecidableEq, Repr

/-- The decoder's working registers (R24) and its state register (R28). The three counts are held as
natural numbers; R27 says that no rule relies on their wrapping (log entry 20). -/
structure Dec where
  state : DecState
  pos : Nat
  rem : Nat
  code : BitVec 32
  bits : Nat
  rep : Bool
  deriving DecidableEq, Repr

/-- The emission procedure in progress: none; the encode procedure inside a `TX.FIRE` (R233, R237); a
`TX.ENCODE` or a `TX.BURST` that was issued by itself (R234, R235; log entry 25). -/
inductive TxProc
  | idle
  | fire (c : BitVec 32)
  | encode (c : BitVec 32)
  | burst (on off : Nat)
  deriving DecidableEq, Repr

/-- The edge buffer: index and timestamp of every entry that holds a value, indices rising. -/
abbrev Memory := List (Nat × BitVec 32)

/-- The result port (R110; R264, R265, R269, R270 and R150 for the other operations that return a
value): what the last operation that returns something returned. -/
inductive Res
  | none
  | word (v : BitVec 32)
  | view (m : Memory)
  | frame (code : BitVec 32) (rep err : Bool)
  deriving DecidableEq, Repr

/-- An input waiting to be taken: the platform's RESET (R320), or an operation. -/
inductive Cmd
  | reset
  | op (slot : Slot)
  deriving DecidableEq, Repr

/-- Why the machine stops. The spec has no fault (R290). -/
inductive Fault
  /-- An access to an edge-buffer index at or above `EDGE_CAP` (R61). Raised by a decoder row, by
  `FSM.FIRE` on the decoder, by `DEC.RUN` and by framer row F6, in states that no agent's step reaches.
  Safe. -/
  | edgeIndexOutOfRange
  deriving DecidableEq, Repr

/-- Why an operation is turned away: what 93_implementation_defined.md treats as `refuse`. -/
inductive Refusal
  /-- An instruction without a meaning yet, by its mnemonic. Raised by `exec` only. Safe. -/
  | notModelled (mnemonic : String)
  /-- A slot that spells no operation (U9, R108). Raised by `step`. Safe. -/
  | undefinedWord (r : Reject)
  /-- A host-side operation while an emission procedure blocks the host (U23, R238, R75). Raised by
  every operation of the host's side. Safe. -/
  | hostBlocked
  /-- `FSM.INIT` on an empty table (U17, R133). Raised by `FSM.INIT`. Safe. -/
  | emptyTable
  /-- `TX.BURST` with a count of 0 or at least `2 ^ TICK_W` (R235's operand range). Raised by
  `TX.BURST`. Safe. -/
  | burstOutOfRange
  /-- A parameter set that breaks R7 (U18). Raised by `step`. Safe. -/
  | illFormedParameters
  deriving DecidableEq, Repr

/-- The state of the block. INVENTORY.md lists every field with its rule. -/
structure State where
  /-- The parameters (R6, R38): the model's own field, written by no step (log entry 1). -/
  cfg : Params
  rxState : RxState
  rxEnabled : Bool
  rxCode : BitVec 32
  rxRep : Bool
  rxErr : Bool
  rxLastCount : BitVec 32
  rxLastTime : BitVec 32
  txState : TxState
  txCode : BitVec 32
  txProc : TxProc
  txSeg : Nat
  txSegStart : Tick
  dec : Dec
  ebuf : Memory
  ecount : Nat
  capEn : Bool
  tick : Tick
  tickRun : Bool
  ms : BitVec 32
  carrier : Bool
  /-- The result port (R110; log entry 16). -/
  res : Res
  /-- The inputs waiting to be taken, the next one first: the model's own field (log entry 8). -/
  inbox : List Cmd
  /-- How many of the environment's free choices have been taken: the model's own field (log entry 8). -/
  envSteps : Nat
  /-- How often the edge buffer was cleared: the model's own field (log entry 6). -/
  ebufEra : Nat
  /-- How many free durations and free reset values were drawn: the model's own field (log entries 7, 18). -/
  fresh : Nat
  deriving DecidableEq, Repr

/-- The decoder's working registers as R151 sets them at the start of a run over `n` edges. -/
def decStart (n : Nat) : Dec where
  state := .idle
  pos := 0
  rem := n
  code := 0
  bits := 0
  rep := false

/-- The state after reset (R47, R321, R322) with these parameters and these values of the two clocks,
which reset leaves unspecified (R323). -/
def State.resetWith (cfg : Params) (tick ms : BitVec 32) : State where
  cfg := cfg
  rxState := .off
  rxEnabled := false
  rxCode := 0
  rxRep := false
  rxErr := false
  rxLastCount := 0
  rxLastTime := 0
  txState := .waiting
  txCode := 0
  txProc := .idle
  txSeg := 0
  txSegStart := 0
  dec := decStart 0
  ebuf := []
  ecount := 0
  capEn := false
  tick := tick
  tickRun := false
  ms := ms
  carrier := false
  res := .none
  inbox := []
  envSteps := 0
  ebufEra := 0
  fresh := 0

/-- The machine right after reset: the default parameters, both clocks at zero (log entries 1, 2, 3). -/
def State.reset : State := State.resetWith defaultParams 0 0

end Sys2Proof.Machine
end

