-- ==== Sys2Proof/Machine/Engine.lean ====
section
/-! DEFINITION. The generic FSM engine (40_fsm_engine.md): a priority-ordered guarded transition table and
the rule that evaluates it. -/

namespace Sys2Proof.Machine

/-- A transition table over a component's state `σ` (R99, R130): its rows in table order, and for each row
`(fromState, guard, toState, action?)`; and where the component keeps the instance's state register. The
end of the list stands for the sentinel row. -/
structure Fsm (ρ q σ : Type) where
  rows : List ρ
  src : ρ → q
  guard : ρ → σ → Bool
  dst : ρ → q
  action : ρ → Option (σ → σ)
  current : σ → q
  setCurrent : q → σ → σ

/-- The row that fires: the first in table order whose from-state is the current state and whose guard is
true (R131, R132). -/
def Fsm.select {ρ q σ : Type} [DecidableEq q] (m : Fsm ρ q σ) (x : σ) : Option ρ :=
  m.rows.find? (fun r => decide (m.src r = m.current x) && m.guard r x)

/-- Take a row: its action, if it has one, then the state register (R132 corner case (c)). -/
def Fsm.take {ρ q σ : Type} (m : Fsm ρ q σ) (r : ρ) (x : σ) : σ :=
  m.setCurrent (m.dst r)
    (match m.action r with
      | some act => act x
      | none => x)

/-- `FSM.FIRE` (R132): at most one transition; if no guard matches, nothing changes. -/
def Fsm.fire {ρ q σ : Type} [DecidableEq q] (m : Fsm ρ q σ) (x : σ) : σ :=
  match m.select x with
  | some r => m.take r x
  | none => x

/-- One row on its own: it is taken exactly when it is the row that fires (R131; log entry 12). -/
def Fsm.tryRow {ρ q σ : Type} [DecidableEq q] [DecidableEq ρ] (m : Fsm ρ q σ) (r : ρ) (x : σ) : σ :=
  if m.select x = some r then m.take r x else x

/-- The initial state: the first row's from-state (R133); none for an empty table. -/
def Fsm.initial {ρ q σ : Type} (m : Fsm ρ q σ) : Option q := m.rows.head?.map m.src

end Sys2Proof.Machine
end

