-- ==== Sys2Proof/Machine/Flags.lean ====
section
/-! DEFINITION. The flags that are computed: the error flag of a decoder result and the two activity
flags. The block has no arithmetic condition codes (R31). -/

namespace Sys2Proof.Machine

/-- `err = (code == 0) and not rep` (R103, R169). -/
def errFlag (code : BitVec 32) (rep : Bool) : Bool := decide (code = 0) && !rep

/-- `rx_active`: not stored, it is `rx_state == WAIT` (R33). -/
def rxActive (s : State) : Bool := decide (s.rxState = .wait)

/-- `tx_active`: constant false between host operations (R33, R35, R232). -/
def txActive (_ : State) : Bool := false

/-- "edges have arrived that the framer has not yet acknowledged" (R43): `ecount != rx_last_count`. -/
def newEdges (s : State) : Bool := decide (BitVec.ofNat 32 s.ecount ≠ s.rxLastCount)

end Sys2Proof.Machine
end

