-- ==== Sys2Proof/Machine/Operands.lean ====
section
/-! DEFINITION. The arithmetic on operands: widths, modular subtraction, window tests, the shift that
assembles a command (R9, R100, R101, R104). All values are unsigned; there is no sign extension (R9). -/

namespace Sys2Proof.Machine

/-- A value reduced modulo `2 ^ TICK_W` (R9). -/
def trunc (w : TickWidth) (x : BitVec 32) : Tick :=
  match w with
  | .w16 => x &&& 0xFFFF
  | .w32 => x

/-- `sub_TICK_W(a, b)`, the modular subtraction of all duration computations (R9, R100). -/
def tickSub (w : TickWidth) (a b : Tick) : Tick := trunc w (a - b)

/-- `(tick + 1) mod 2 ^ TICK_W` (R261). -/
def tickSucc (w : TickWidth) (a : Tick) : Tick := trunc w (a + 1)

/-- `sub_32(a, b)` (R9, R104). -/
def sub32 (a b : BitVec 32) : BitVec 32 := a - b

/-- `shl32(v)`, the logical shift left by one with the least significant bit cleared (R9). -/
def shl32 (v : BitVec 32) : BitVec 32 := v <<< 1

/-- A received bit appended at the least-significant end: `(shl32(code) + b) mod 2^32` (R101). -/
def appendBit (code : BitVec 32) (b : Bool) : BitVec 32 := shl32 code + boolWord b

/-- `inW(d, W)` (R153): both ends inclusive, unsigned (R104). -/
def inW (d : Tick) (w : Window) : Bool := within d.toNat w

/-- A tick count as a value of the counter. -/
def tickOf (w : TickWidth) (n : Nat) : Tick := trunc w (BitVec.ofNat 32 n)

/-- The bit of the command that is sent as number `k`, counted from 0: `c[31 - k]` (R97, R101). -/
def wireBit (c : BitVec 32) (k : Nat) : Bool := c.getLsbD (31 - k)

/-- Some count inside a window, whatever `n` is: every count of a non-empty window is reached by some `n`. -/
def pickIn (w : Window) (n : Nat) : Nat := w.lo + n % (w.hi - w.lo + 1)

/-- A count between 1 and `2 ^ TICK_W - 1`, whatever `n` is. -/
def pickCount (w : TickWidth) (n : Nat) : Nat := 1 + n % (tickModulus w - 1)

/-- The number R112 gives a framer state. -/
def rxStateNumber : RxState → Nat
  | .off => 0
  | .idle => 1
  | .wait => 2

/-- The number R112 gives a decoder state. -/
def decStateNumber : DecState → Nat
  | .idle => 0
  | .init => 1
  | .symbolSilence => 2
  | .symbolPulse => 3

/-- The number R112 gives the transmitter's state. -/
def txStateNumber : TxState → Nat
  | .waiting => 0

end Sys2Proof.Machine
end

