-- ==== Sys2Proof/Machine/Waveform.lean ====
section
/-! DEFINITION. The waveform of a command (R236) and what is read off it: segment starts, edges, duration. -/

namespace Sys2Proof.Machine

/-- The two segments of `burst(on, off)` (R235). -/
def burstSegments (on off : Nat) : List Segment := [(true, on), (false, off)]

/-- The burst of one data bit: "the \"1\" or \"0\" timing pair" (R90, R234). -/
def bitSegments (cfg : Params) (b : Bool) : List Segment :=
  if b then burstSegments cfg.txSym1On cfg.txSym1Off else burstSegments cfg.txSym0On cfg.txSym0Off

/-- `Wave(c)`: prologue, the 32 bits from most to least significant, epilogue; 68 segments (R236). -/
def wave (cfg : Params) (c : BitVec 32) : List Segment :=
  burstSegments cfg.txPrologueOn cfg.txPrologueOff
    ++ (List.range frameBits).flatMap (fun k => bitSegments cfg (wireBit c k))
    ++ burstSegments cfg.txEpilogueOn cfg.txEpilogueOff

/-- The length of a waveform in ticks. -/
def waveTicks (segs : List Segment) : Nat := (segs.map Prod.snd).sum

/-- `S(j)`: the tick at which segment `j` begins (R236). -/
def segStart (segs : List Segment) (j : Nat) : Nat := waveTicks (segs.take j)

/-- The level of the waveform `t` ticks after its start; low after its end. -/
def levelAt : List Segment → Nat → Bool
  | [], _ => false
  | (l, n) :: rest, t => if t < n then l else levelAt rest (t - n)

/-- The number of 0 bits of a command, `z` of R236. -/
def zeroBits (c : BitVec 32) : Nat := ((List.range 32).filter (fun i => !c.getLsbD i)).length

/-- `Dur(c)` (R236). -/
def dur (cfg : Params) (c : BitVec 32) : Nat :=
  cfg.txPrologueOn + cfg.txPrologueOff + zeroBits c * (cfg.txSym0On + cfg.txSym0Off)
    + (32 - zeroBits c) * (cfg.txSym1On + cfg.txSym1Off) + cfg.txEpilogueOn + cfg.txEpilogueOff

/-- The timestamp of edge `j` of the waveform of `c`, when it starts at tick `k` (R175, R242). -/
def edgeStamp (cfg : Params) (c : BitVec 32) (k j : Nat) : Tick :=
  tickOf cfg.tickW (k + segStart (wave cfg c) j)

/-- `E(c) + k`: the first 67 edge timestamps of the waveform of `c` from tick `k` (R175). -/
def edgeStamps (cfg : Params) (c : BitVec 32) (k : Nat) : List Tick :=
  (List.range edgeCap).map (edgeStamp cfg c k)

/-- The segments of the procedure in progress. -/
def procSegments (cfg : Params) : TxProc → List Segment
  | .idle => []
  | .fire c => wave cfg c
  | .encode c => wave cfg c
  | .burst on off => burstSegments on off

end Sys2Proof.Machine
end

