-- ==== Sys2Proof/Machine/Ops.lean ====
section
/-! DEFINITION. The shared operations: the edge buffer as a memory, the platform primitives (R264 to
R272), the events (R261 to R263), the emission sequencer (R237), the RESET event (R320) and the
blocking of the host (R238).

There is no taking of an exception and no return from one: "There is no trap entry" (R304), "There is no
trap return and no nesting" (R305), and there is one privilege level (R306). -/

namespace Sys2Proof.Machine

/-! ### The edge buffer -/

/-- The entry at an index, where one is held. -/
def Memory.read : Memory → Nat → Option (BitVec 32)
  | [], _ => none
  | (j, v) :: m, i => if i = j then some v else Memory.read m i

/-- Store an entry, keeping the indices rising. -/
def Memory.write : Memory → Nat → BitVec 32 → Memory
  | [], i, v => [(i, v)]
  | (j, u) :: m, i, v =>
    if i < j then (i, v) :: (j, u) :: m
    else if i = j then (i, v) :: m
    else (j, u) :: Memory.write m i v

/-- The indices are at least `lo`, below `EDGE_CAP`, and strictly rising. -/
def Memory.wfFrom : Nat → Memory → Bool
  | _, [] => true
  | lo, (i, _) :: m => decide (lo ≤ i) && decide (i < edgeCap) && Memory.wfFrom (i + 1) m

/-- The canonical form: strictly rising indices of `0 .. EDGE_CAP - 1` (R42). An index that is not listed
holds no value, so no listed entry repeats what an unlisted one reads as. -/
def Memory.wf (m : Memory) : Bool := Memory.wfFrom 0 m

/-- What reading entry `i` gives: the stored timestamp, or, where nothing has been written since the last
clear, an unspecified value of `TICK_W` bits (U12; log entry 6). -/
def edgeAt (s : State) (i : Nat) : Tick :=
  match Memory.read s.ebuf i with
  | some v => v
  | none => trunc s.cfg.tickW (Config.unspecifiedEntry s.ebufEra i)

/-- `delta(i)`, the duration between edges `i` and `i + 1` (R100). -/
def delta (s : State) (i : Nat) : Tick := tickSub s.cfg.tickW (edgeAt s (i + 1)) (edgeAt s i)

/-! ### Primitives -/

/-- `nowMillis()` (R264). -/
def nowMillis (s : State) : BitVec 32 := s.ms

/-- `currentTick()` (R265). -/
def currentTick (s : State) : Tick := s.tick

/-- `startTimer()` (R266): zeroes the counter and starts it. -/
def startTimer (s : State) : State := { s with tick := 0, tickRun := true }

/-- `stopTimer()` (R267). -/
def stopTimer (s : State) : State := { s with tickRun := false }

/-- `setCarrier(b)` (R268). -/
def setCarrier (b : Bool) (s : State) : State := { s with carrier := b }

/-- `getEdgeCount()` (R269): the count, zero-extended. -/
def getEdgeCount (s : State) : BitVec 32 := BitVec.ofNat 32 s.ecount

/-- `getEdgeBuffer()` (R270): a read-only view of the entries held. -/
def getEdgeBuffer (s : State) : Memory := s.ebuf

/-- `clearEdgeBuffer()` (R271): the count becomes 0; what the entries hold afterwards is unspecified, so
they hold no value and the unspecified contents are drawn afresh (U12; log entry 6). -/
def clearEdgeBuffer (s : State) : State :=
  { s with ecount := 0, ebuf := [], ebufEra := s.ebufEra + 1 }

/-- `enableCapture(b)` (R272). -/
def enableCapture (b : Bool) (s : State) : State := { s with capEn := b }

/-- The result port takes a value (R110). -/
def setRes (r : Res) (s : State) : State := { s with res := r }

/-- What `FSM.DESTROY` does: nothing, every instance is static (R134). -/
def releaseFsm (_ : FsmId) (s : State) : State := s

/-! ### The emission sequencer -/

/-- The start of an emission procedure at the present tick: segment 0 begins, and it is an ON segment
(R235, R237). -/
def beginProc (p : TxProc) (s : State) : State :=
  { s with txProc := p, txSeg := 0, txSegStart := s.tick, carrier := true }

/-- The start of the encode procedure: `startTimer()`, then the first segment (R234, R237). -/
def beginEncode (p : TxProc) (s : State) : State := beginProc p (startTimer s)

/-- The end of an emission procedure: carrier off, host unblocked, and for a `TX.FIRE` the code is cleared
(R233, R237, R239). -/
def endProc (s : State) : State :=
  match s.txProc with
  | .fire _ => { s with txProc := .idle, txSeg := 0, txSegStart := 0, carrier := false, txCode := 0 }
  | _ => { s with txProc := .idle, txSeg := 0, txSegStart := 0, carrier := false }

/-- The check after every `TICK` step (R237): when the segment has lasted its ticks, the next one begins, or
the procedure ends. -/
def sequencerCheck (s : State) : State :=
  match (procSegments s.cfg s.txProc)[s.txSeg]? with
  | none => s
  | some (_, n) =>
    if n ≤ (tickSub s.cfg.tickW s.tick s.txSegStart).toNat then
      match (procSegments s.cfg s.txProc)[s.txSeg + 1]? with
      | none => endProc s
      | some (level, _) => { s with txSeg := s.txSeg + 1, txSegStart := s.tick, carrier := level }
    else s

/-! ### Events -/

/-- `TICK` (R261): the counter counts while it runs; inside an emission procedure the sequencer's check
follows in the same step. -/
def tickEvent (s : State) : State :=
  sequencerCheck (if s.tickRun then { s with tick := tickSucc s.cfg.tickW s.tick } else s)

/-- `MSTICK` (R262). -/
def mstickEvent (s : State) : State := { s with ms := s.ms + 1 }

/-- `EDGE` (R263): a captured transition stores the tick counter at index `ecount`; with the capture
disabled or the buffer full nothing changes (R62). -/
def edgeEvent (s : State) : State :=
  if s.capEn = true ∧ s.ecount < edgeCap then
    { s with ebuf := Memory.write s.ebuf s.ecount s.tick, ecount := s.ecount + 1 }
  else s

/-- `RESET` (R320, R325): every element of the block at its reset value; the clocks and the buffer
unspecified (R323), so their values are free (log entries 6 and 7). The parameters and the inputs still
waiting are not state of the block (R38, R49). -/
def resetEvent (s : State) : State :=
  { State.resetWith s.cfg (trunc s.cfg.tickW (Config.resetTick s.fresh)) (Config.resetMs s.fresh) with
    inbox := s.inbox, envSteps := s.envSteps, ebufEra := s.ebufEra + 1, fresh := s.fresh + 1 }

/-! ### The host's side -/

/-- What an operation of the host's side answers: while an emission procedure is in progress the host is
blocked and can issue nothing (R238, R75; U23; log entry 15). -/
def hostSide (s : State) (o : Host.Outcome State Fault Refusal) : Host.Outcome State Fault Refusal :=
  if s.txProc = .idle then o else .refused .hostBlocked

end Sys2Proof.Machine
end

