-- ==== Sys2Proof/Machine/Decoder.lean ====
section
/-! DEFINITION. The NEC decoder (41_decoder.md): its table, its run, the transitions T1 to T11 and `DEC.RUN`. -/

namespace Sys2Proof.Machine

/-- The rows of the decoder table (R157). -/
inductive DecRow
  | t1 | t2 | t3 | t4 | t5 | t6 | t7 | t8 | t9 | t10 | t11
  deriving DecidableEq, Repr

/-- "advance one edge", "advance two edges" (R156). -/
def advance (k : Nat) (d : Dec) : Dec := { d with pos := d.pos + k, rem := d.rem - k }

/-- A received bit: appended to the code, one bit fewer remaining (R101, R102, R166, R167). -/
def acceptBit (b : Bool) (d : Dec) : Dec := { d with code := appendBit d.code b, bits := d.bits - 1 }

/-- What a noise abort in a SYMBOL state does to the code (R165, R168; D10). -/
def abortCode (cfg : Params) (d : Dec) : Dec := if cfg.abortClearsCode then { d with code := 0 } else d

/-- The duration measured at a fire, "the tick delta between the current and next edge" (R154). -/
def measured (cfg : Params) (rd : Nat → Tick) (d : Dec) : Tick :=
  tickSub cfg.tickW (rd (d.pos + 1)) (rd d.pos)

/-- The decoder's table, in table order (R157), over a buffer that it only reads (R65, R170). -/
def decFsm (cfg : Params) (rd : Nat → Tick) : Fsm DecRow DecState Dec where
  rows := [.t1, .t2, .t3, .t4, .t5, .t6, .t7, .t8, .t9, .t10, .t11]
  src
    | .t1 | .t2 => .idle
    | .t3 | .t4 | .t5 => .init
    | .t6 | .t7 | .t8 => .symbolSilence
    | .t9 | .t10 | .t11 => .symbolPulse
  guard
    | .t1, d => inW (measured cfg rd d) cfg.wLeadOn
    | .t2, _ => true
    | .t3, d => inW (measured cfg rd d) cfg.wLeadOff
    | .t4, d => inW (measured cfg rd d) cfg.wRepOff
    | .t5, _ => true
    | .t6, d => decide (d.bits = 0)
    | .t7, d => inW (measured cfg rd d) cfg.wBitOn
    | .t8, _ => true
    | .t9, d => inW (measured cfg rd d) cfg.wBit0Off
    | .t10, d => inW (measured cfg rd d) cfg.wBit1Off
    | .t11, _ => true
  dst
    | .t1 => .init
    | .t2 => .idle
    | .t3 | .t4 => .symbolSilence
    | .t5 => .idle
    | .t6 => .idle
    | .t7 => .symbolPulse
    | .t8 => .idle
    | .t9 | .t10 => .symbolSilence
    | .t11 => .idle
  action
    | .t1 => some (fun d => advance 1 { d with code := 0 })
    | .t2 => some (advance 2)
    | .t3 => some (fun d => advance 1 { d with bits := 32, rep := false })
    | .t4 => some (fun d => advance 1 { d with bits := 0, rep := true })
    | .t5 => some (advance 1)
    | .t6 => some (fun d => { d with rem := 0 })
    | .t7 => some (advance 1)
    | .t8 => some (fun d => advance 1 (abortCode cfg d))
    | .t9 => some (fun d => advance 1 (acceptBit false d))
    | .t10 => some (fun d => advance 1 (acceptBit true d))
    | .t11 => some (fun d => advance 1 (abortCode cfg d))
  current := Dec.state
  setCurrent q d := { d with state := q }

/-- The drive loop (R155): fire while at least 2 edges remain, at most `fuel` times. -/
def decDrive (cfg : Params) (rd : Nat → Tick) : Nat → Dec → Dec
  | 0, d => d
  | fuel + 1, d => if d.rem < 2 then d else decDrive cfg rd fuel ((decFsm cfg rd).fire d)

/-- `DEC.RUN(buf, n)` (R151, R155): the working registers when the drive loop stops. A run makes at most
`n - 1` fires (R171), so `n` of them are enough. -/
def decRun (cfg : Params) (rd : Nat → Tick) (n : Nat) : Dec := decDrive cfg rd n (decStart n)

/-- The DecodedFrame of a run: the final code, the final repetition flag, the error flag (R155, R169). -/
def decFrame (d : Dec) : Res := .frame d.code d.rep (errFlag d.code d.rep)

/-- A fire at these registers measures a duration past the end of the edge buffer: row T6, which does not
look at the duration, is not the one that fires, and the next edge has no entry (R61, R154, R163). -/
def decOutOfRange (d : Dec) : Bool :=
  !(decide (d.state = .symbolSilence) && decide (d.bits = 0)) && decide (edgeCap ≤ d.pos + 1)

/-- One row of the decoder table by itself. The drive loop fires only while at least 2 edges remain (R155,
R156; log entry 13); a row of another state is skipped without evaluating its guard (R131). -/
def decTransition (r : DecRow) (s : State) : Host.Outcome State Fault Refusal :=
  hostSide s <|
    if s.dec.rem < 2 ∨ (decFsm s.cfg (edgeAt s)).src r ≠ s.dec.state then .next s
    else if decOutOfRange s.dec then .fault .edgeIndexOutOfRange
    else .next { s with dec := (decFsm s.cfg (edgeAt s)).tryRow r s.dec }

/-- One fire of the decoder by itself (R132, R155). -/
def fireDecoder (s : State) : Host.Outcome State Fault Refusal :=
  hostSide s <|
    if s.dec.rem < 2 then .next s
    else if decOutOfRange s.dec then .fault .edgeIndexOutOfRange
    else .next { s with dec := (decFsm s.cfg (edgeAt s)).fire s.dec }

/-- T1, a lead ON accepted (R158). -/
def execT1 (s : State) : Host.Outcome State Fault Refusal := decTransition .t1 s

/-- T2, not a lead (R159). -/
def execT2 (s : State) : Host.Outcome State Fault Refusal := decTransition .t2 s

/-- T3, a command prologue (R160). -/
def execT3 (s : State) : Host.Outcome State Fault Refusal := decTransition .t3 s

/-- T4, a repetition (R161). -/
def execT4 (s : State) : Host.Outcome State Fault Refusal := decTransition .t4 s

/-- T5, noise after a lead (R162). -/
def execT5 (s : State) : Host.Outcome State Fault Refusal := decTransition .t5 s

/-- T6, end of frame (R163). -/
def execT6 (s : State) : Host.Outcome State Fault Refusal := decTransition .t6 s

/-- T7, a bit's ON part accepted (R164). -/
def execT7 (s : State) : Host.Outcome State Fault Refusal := decTransition .t7 s

/-- T8, noise in a bit's ON part (R165). -/
def execT8 (s : State) : Host.Outcome State Fault Refusal := decTransition .t8 s

/-- T9, a 0 bit (R166). -/
def execT9 (s : State) : Host.Outcome State Fault Refusal := decTransition .t9 s

/-- T10, a 1 bit (R167). -/
def execT10 (s : State) : Host.Outcome State Fault Refusal := decTransition .t10 s

/-- T11, noise in a bit's OFF part (R168). -/
def execT11 (s : State) : Host.Outcome State Fault Refusal := decTransition .t11 s

/-- `DEC.RUN` over the first `n` entries of the edge buffer (R150, R155): the result goes to the result
port, the working registers hold their final values, nothing else changes (R170; log entry 31). -/
def execDecRun (n : BitVec 32) (s : State) : Host.Outcome State Fault Refusal :=
  hostSide s <|
    if n.toNat ≤ edgeCap then
      .next { s with
        dec := decRun s.cfg (edgeAt s) n.toNat
        res := decFrame (decRun s.cfg (edgeAt s) n.toNat) }
    else .fault .edgeIndexOutOfRange

end Sys2Proof.Machine
end

