-- ==== Sys2Proof/Machine/Framer.lean ====
section
/-! DEFINITION. The NEC receive framer (42_rx_framer.md): its table, the transitions F1 to F6 and the seven
receive-side host operations. -/

namespace Sys2Proof.Machine

/-- The rows of the framer table (R191). -/
inductive RxRow
  | f1 | f2 | f3 | f4 | f5 | f6
  deriving DecidableEq, Repr

/-- The action of F1 (R192). -/
def armReceiver (s : State) : State := enableCapture true (clearEdgeBuffer (startTimer s))

/-- The action of F2 (R193): stop the timer, disable the capture, release the decoder. -/
def disarmReceiver (s : State) : State := releaseFsm .decoder (enableCapture false (stopTimer s))

/-- The action of F3 and F5 (R194, R196). -/
def noteEdges (s : State) : State :=
  { s with rxLastTime := nowMillis s, rxLastCount := getEdgeCount s }

/-- The action of F4 (R195). -/
def abandonFrame (s : State) : State := { disarmReceiver s with rxLastCount := 0 }

/-- Store a decoder result in the frame registers (R21, R197). -/
def storeFrame (d : Dec) (s : State) : State :=
  { s with rxCode := d.code, rxRep := d.rep, rxErr := errFlag d.code d.rep, dec := d }

/-- The action of F6 (R197): decode the snapshot of `rx_last_count` edges, store the frame, clear. -/
def endFrame (s : State) : State :=
  { clearEdgeBuffer (storeFrame (decRun s.cfg (edgeAt s) s.rxLastCount.toNat) s) with rxLastCount := 0 }

/-- The timeout test of F6, strict (R104, R197): `sub_32(nowMillis(), rx_last_time) > RX_TIMEOUT_MS`. -/
def timedOut (s : State) : Bool := decide (s.cfg.rxTimeoutMs < (sub32 (nowMillis s) s.rxLastTime).toNat)

/-- The framer's table, in table order (R191). -/
def framerFsm : Fsm RxRow RxState State where
  rows := [.f1, .f2, .f3, .f4, .f5, .f6]
  src
    | .f1 => .off
    | .f2 | .f3 => .idle
    | .f4 | .f5 | .f6 => .wait
  guard
    | .f1, s => s.rxEnabled
    | .f2, s => !s.rxEnabled
    | .f3, s => newEdges s
    | .f4, s => !s.rxEnabled
    | .f5, s => newEdges s
    | .f6, s => timedOut s
  dst
    | .f1 => .idle
    | .f2 => .off
    | .f3 => .wait
    | .f4 => .off
    | .f5 => .wait
    | .f6 => .idle
  action
    | .f1 => some armReceiver
    | .f2 => some disarmReceiver
    | .f3 => some noteEdges
    | .f4 => some abandonFrame
    | .f5 => some noteEdges
    | .f6 => some endFrame
  current := State.rxState
  setCurrent q s := { s with rxState := q }

/-- Row F6 fires with a count past the buffer's capacity, so that its `DEC.RUN` would read an entry that
does not exist (R61, R208: it is never so in a state that steps reach; log entry 14). -/
def framerOutOfRange (s : State) : Bool :=
  decide (framerFsm.select s = some .f6) && decide (edgeCap < s.rxLastCount.toNat)

/-- One fire of the framer: at most one of F1 to F6 (R198). -/
def fireFramer (s : State) : Host.Outcome State Fault Refusal :=
  hostSide s <|
    if framerOutOfRange s then .fault .edgeIndexOutOfRange else .next (framerFsm.fire s)

/-- One row of the framer table by itself. -/
def framerTransition (r : RxRow) (s : State) : Host.Outcome State Fault Refusal :=
  hostSide s <|
    if r = .f6 ∧ framerOutOfRange s = true then .fault .edgeIndexOutOfRange
    else .next (framerFsm.tryRow r s)

/-- F1, `OFF` to `IDLE` (R192). -/
def execF1 (s : State) : Host.Outcome State Fault Refusal := framerTransition .f1 s

/-- F2, `IDLE` to `OFF` (R193). -/
def execF2 (s : State) : Host.Outcome State Fault Refusal := framerTransition .f2 s

/-- F3, `IDLE` to `WAIT` (R194). -/
def execF3 (s : State) : Host.Outcome State Fault Refusal := framerTransition .f3 s

/-- F4, `WAIT` to `OFF` (R195). -/
def execF4 (s : State) : Host.Outcome State Fault Refusal := framerTransition .f4 s

/-- F5, `WAIT` to `WAIT` (R196). -/
def execF5 (s : State) : Host.Outcome State Fault Refusal := framerTransition .f5 s

/-- F6, `WAIT` to `IDLE`, end of frame (R197). -/
def execF6 (s : State) : Host.Outcome State Fault Refusal := framerTransition .f6 s

/-- `RX.FIRE` (R198). -/
def execRxFire (s : State) : Host.Outcome State Fault Refusal := fireFramer s

/-- `RX.SETEN b` (R199): only `rx_enabled` changes; a later fire acts on it (R36). -/
def execRxSeten (b : Bool) (s : State) : Host.Outcome State Fault Refusal :=
  hostSide s (.next { s with rxEnabled := b })

/-- `RX.GETCODE` (R200). -/
def execRxGetcode (s : State) : Host.Outcome State Fault Refusal :=
  hostSide s (.next (setRes (.word s.rxCode) s))

/-- `RX.GETREP` (R201). -/
def execRxGetrep (s : State) : Host.Outcome State Fault Refusal :=
  hostSide s (.next (setRes (.word (boolWord s.rxRep)) s))

/-- `RX.GETERR` (R202). -/
def execRxGeterr (s : State) : Host.Outcome State Fault Refusal :=
  hostSide s (.next (setRes (.word (boolWord s.rxErr)) s))

/-- `RX.RESETCODE` (R203): the code and both flags. -/
def execRxResetcode (s : State) : Host.Outcome State Fault Refusal :=
  hostSide s (.next { s with rxCode := 0, rxRep := false, rxErr := false })

/-- `RX.ISACTIVE` (R204). -/
def execRxIsactive (s : State) : Host.Outcome State Fault Refusal :=
  hostSide s (.next (setRes (.word (boolWord (rxActive s))) s))

end Sys2Proof.Machine
end

