-- ==== Sys2Proof/Machine/Transmitter.lean ====
section
/-! DEFINITION. The NEC transmitter (43_transmitter.md): its one-row table, the three transmit-side host
operations, and the procedures `TX.ENCODE` and `TX.BURST`. The waveform is in Waveform.lean and the
sequencer that each `TICK` steps is in Ops.lean. -/

namespace Sys2Proof.Machine

/-- The one row of the transmitter table (R233). -/
inductive TxRow
  | x1
  deriving DecidableEq, Repr

/-- The transmitter's table (R233, R138). The action starts the encode procedure of the pending code; the
code is cleared when the last segment ends (R237, R239). -/
def txFsm : Fsm TxRow TxState State where
  rows := [.x1]
  src _ := .waiting
  guard _ s := decide (s.txCode ≠ 0)
  dst _ := .waiting
  action _ := some (fun s => beginEncode (.fire s.txCode) s)
  current := State.txState
  setCurrent q s := { s with txState := q }

/-- One fire of the transmitter: with no code pending nothing happens and no time passes (R233). -/
def fireTransmitter (s : State) : Host.Outcome State Fault Refusal :=
  hostSide s (.next (txFsm.fire s))

/-- `TX.FIRE` (R233): with a pending code the encode procedure starts and blocks the host (R238). -/
def execTxFire (s : State) : Host.Outcome State Fault Refusal := fireTransmitter s

/-- Transition X1 (R233). -/
def execX1 (s : State) : Host.Outcome State Fault Refusal :=
  hostSide s (.next (txFsm.tryRow .x1 s))

/-- `TX.SETCODE c` (R231): zero is rejected without a report (R105, R295). -/
def execTxSetcode (c : BitVec 32) (s : State) : Host.Outcome State Fault Refusal :=
  hostSide s (.next (if c ≠ 0 then { s with txCode := c } else s))

/-- `TX.ISACTIVE` (R232): always 0. -/
def execTxIsactive (s : State) : Host.Outcome State Fault Refusal :=
  hostSide s (.next (setRes (.word (boolWord (txActive s))) s))

/-- `TX.ENCODE(c)` (R234), issued by itself: as in a `TX.FIRE`, but no pending code is cleared at its end
(log entry 25). -/
def execTxEncode (c : BitVec 32) (s : State) : Host.Outcome State Fault Refusal :=
  hostSide s (.next (beginEncode (.encode c) s))

/-- A burst's count: at least 1 and less than `2 ^ TICK_W` (R235). -/
def burstCountOk (s : State) (n : BitVec 32) : Bool := countOk s.cfg.tickW n.toNat

/-- `TX.BURST(on, off)` (R235), issued by itself: the carrier is driven from the present tick; the counter
is not restarted. -/
def execTxBurst (on off : BitVec 32) (s : State) : Host.Outcome State Fault Refusal :=
  hostSide s <|
    if burstCountOk s on = true ∧ burstCountOk s off = true then
      .next (beginProc (.burst on.toNat off.toNat) s)
    else .refused .burstOutOfRange

end Sys2Proof.Machine
end

