-- ==== Sys2Proof/Machine/EngineOps.lean ====
section
/-! DEFINITION. The engine operations on the block's three instances (R132 to R134, R138). -/

namespace Sys2Proof.Machine

/-- Bind an instance's own table: its state register takes the first row's from-state (R133, R138). The
tables are constants, so nothing else is written (R49, R74). -/
def initFsm (m : FsmId) (s : State) : State :=
  match m with
  | .framer =>
    match framerFsm.initial with
    | some q => framerFsm.setCurrent q s
    | none => s
  | .decoder =>
    match (decFsm s.cfg (edgeAt s)).initial with
    | some q => { s with dec := (decFsm s.cfg (edgeAt s)).setCurrent q s.dec }
    | none => s
  | .transmitter =>
    match txFsm.initial with
    | some q => txFsm.setCurrent q s
    | none => s

/-- `FSM.INIT(m, t)` (R133): an empty table is refused (U17). -/
def execFsmInit (m : FsmId) (t : TableArg) (s : State) : Host.Outcome State Fault Refusal :=
  hostSide s <|
    match t with
    | .own => .next (initFsm m s)
    | .empty => .refused .emptyTable

/-- `FSM.FIRE(m)` (R132, R137). -/
def execFsmFire (m : FsmId) (s : State) : Host.Outcome State Fault Refusal :=
  match m with
  | .framer => fireFramer s
  | .decoder => fireDecoder s
  | .transmitter => fireTransmitter s

/-- `FSM.DESTROY(m)` (R134): no architectural effect. -/
def execFsmDestroy (m : FsmId) (s : State) : Host.Outcome State Fault Refusal :=
  hostSide s (.next (releaseFsm m s))

end Sys2Proof.Machine
end

