-- ==== Sys2Proof/Machine/Events.lean ====
section
/-! DEFINITION. The three events (R261 to R263) as operations. They land between host operations and also
while the host is blocked in a transmission (R238). -/

namespace Sys2Proof.Machine

/-- `TICK` (R261). -/
def execTick (s : State) : Host.Outcome State Fault Refusal := .next (tickEvent s)

/-- `MSTICK` (R262). -/
def execMstick (s : State) : Host.Outcome State Fault Refusal := .next (mstickEvent s)

/-- `EDGE` (R263). -/
def execEdge (s : State) : Host.Outcome State Fault Refusal := .next (edgeEvent s)

end Sys2Proof.Machine
end

