-- ==== Sys2Proof/Machine/Primitives.lean ====
section
/-! DEFINITION. The nine platform primitives (R264 to R272), each by itself. In the block each is a fragment
of the step that calls it (R260; log entry 11). -/

namespace Sys2Proof.Machine

/-- `nowMillis()` (R264). -/
def execNowMillis (s : State) : Host.Outcome State Fault Refusal := .next (setRes (.word (nowMillis s)) s)

/-- `currentTick()` (R265). -/
def execCurrentTick (s : State) : Host.Outcome State Fault Refusal := .next (setRes (.word (currentTick s)) s)

/-- `startTimer()` (R266). -/
def execStartTimer (s : State) : Host.Outcome State Fault Refusal := .next (startTimer s)

/-- `stopTimer()` (R267). -/
def execStopTimer (s : State) : Host.Outcome State Fault Refusal := .next (stopTimer s)

/-- `setCarrier(on)` (R268). -/
def execSetCarrier (on : Bool) (s : State) : Host.Outcome State Fault Refusal := .next (setCarrier on s)

/-- `getEdgeCount()` (R269). -/
def execGetEdgeCount (s : State) : Host.Outcome State Fault Refusal := .next (setRes (.word (getEdgeCount s)) s)

/-- `getEdgeBuffer()` (R270). -/
def execGetEdgeBuffer (s : State) : Host.Outcome State Fault Refusal := .next (setRes (.view (getEdgeBuffer s)) s)

/-- `clearEdgeBuffer()` (R271). -/
def execClearEdgeBuffer (s : State) : Host.Outcome State Fault Refusal := .next (clearEdgeBuffer s)

/-- `enableCapture(b)` (R272). -/
def execEnableCapture (b : Bool) (s : State) : Host.Outcome State Fault Refusal := .next (enableCapture b s)

end Sys2Proof.Machine
end

