-- ==== Sys2Proof/Machine/Wire.lean ====
section
/-! DEFINITION. The wire symbols (R90 to R92): sent by a burst of the transmitter, or arriving at the
receiver's line as edges with ticks between them (log entries 17 and 18). -/

namespace Sys2Proof.Machine

/-- One event as an input. -/
def eventCmd (i : Instr) : Cmd := .op (encode i)

/-- What the receiver's line does for an interval of `n` ticks: the edge that begins it, then the ticks
(R93, R94). -/
def intervalCmds (n : Nat) : List Cmd := eventCmd .edge :: List.replicate n (eventCmd .tick)

/-- A symbol arrives: its ON interval, then its OFF interval, before anything else that waits. -/
def receiveBurst (on off : Nat) (s : State) : State :=
  { s with inbox := intervalCmds on ++ intervalCmds off ++ s.inbox }

/-- A symbol with these nominal counts, on the side named. Sending it is one burst (R90, R92). -/
def wireBurst (side : WireSide) (on off : Nat) (s : State) : Host.Outcome State Fault Refusal :=
  match side with
  | .send => hostSide s (.next (beginProc (.burst on off) s))
  | .receive => .next (receiveBurst on off s)

/-- `PROLOGUE`: ON `TX_PROLOGUE_ON`, OFF `TX_PROLOGUE_OFF` (R90). -/
def execPrologue (side : WireSide) (s : State) : Host.Outcome State Fault Refusal :=
  wireBurst side s.cfg.txPrologueOn s.cfg.txPrologueOff s

/-- `SYM0`: ON `TX_SYM0_ON`, OFF `TX_SYM0_OFF` (R92). -/
def execSym0 (side : WireSide) (s : State) : Host.Outcome State Fault Refusal :=
  wireBurst side s.cfg.txSym0On s.cfg.txSym0Off s

/-- `SYM1`: ON `TX_SYM1_ON`, OFF `TX_SYM1_OFF` (R92). -/
def execSym1 (side : WireSide) (s : State) : Host.Outcome State Fault Refusal :=
  wireBurst side s.cfg.txSym1On s.cfg.txSym1Off s

/-- `EPILOGUE`: ON `TX_EPILOGUE_ON`, OFF `TX_EPILOGUE_OFF` (R90). -/
def execEpilogue (side : WireSide) (s : State) : Host.Outcome State Fault Refusal :=
  wireBurst side s.cfg.txEpilogueOn s.cfg.txEpilogueOff s

/-- The lead ON interval of a repetition frame: some count in `W_LEAD_ON` (R91). -/
def repeatLeadOn (s : State) : Nat := pickIn s.cfg.wLeadOn (Config.freeTicks s.fresh)

/-- The OFF interval of a repetition frame: some count in `W_REP_OFF` (R91). -/
def repeatLeadOff (s : State) : Nat := pickIn s.cfg.wRepOff (Config.freeTicks (s.fresh + 1))

/-- The final ON interval of a repetition frame: any count (R91: "is not checked by any rule and is not
given by the source"). -/
def repeatFinalOn (s : State) : Nat := pickCount s.cfg.tickW (Config.freeTicks (s.fresh + 2))

/-- `REPEAT`: a repetition frame arrives, with its 4 edges (R91, R93). NECIR only receives it: the
transmitter has no procedure that emits one (R243). -/
def execRepeatFrame (s : State) : Host.Outcome State Fault Refusal :=
  .next { s with
    inbox := intervalCmds (repeatLeadOn s) ++ intervalCmds (repeatLeadOff s)
      ++ intervalCmds (repeatFinalOn s) ++ [eventCmd .edge] ++ s.inbox
    fresh := s.fresh + 3 }

end Sys2Proof.Machine
end

