-- ==== Sys2Proof/Machine/Dispatch.lean ====
section
/-! DEFINITION. One arm per constructor of Instr: a direct call of its meaning. -/

namespace Sys2Proof.Machine

def exec (i : Instr) (s : State) : Host.Outcome State Fault Refusal :=
  match i with
  | .rxFire => Sys2Proof.Machine.execRxFire s
  | .rxSeten b => Sys2Proof.Machine.execRxSeten b s
  | .rxGetcode => Sys2Proof.Machine.execRxGetcode s
  | .rxGetrep => Sys2Proof.Machine.execRxGetrep s
  | .rxGeterr => Sys2Proof.Machine.execRxGeterr s
  | .rxResetcode => Sys2Proof.Machine.execRxResetcode s
  | .rxIsactive => Sys2Proof.Machine.execRxIsactive s
  | .txFire => Sys2Proof.Machine.execTxFire s
  | .txSetcode c => Sys2Proof.Machine.execTxSetcode c s
  | .txIsactive => Sys2Proof.Machine.execTxIsactive s
  | .t1 => Sys2Proof.Machine.execT1 s
  | .t2 => Sys2Proof.Machine.execT2 s
  | .t3 => Sys2Proof.Machine.execT3 s
  | .t4 => Sys2Proof.Machine.execT4 s
  | .t5 => Sys2Proof.Machine.execT5 s
  | .t6 => Sys2Proof.Machine.execT6 s
  | .t7 => Sys2Proof.Machine.execT7 s
  | .t8 => Sys2Proof.Machine.execT8 s
  | .t9 => Sys2Proof.Machine.execT9 s
  | .t10 => Sys2Proof.Machine.execT10 s
  | .t11 => Sys2Proof.Machine.execT11 s
  | .f1 => Sys2Proof.Machine.execF1 s
  | .f2 => Sys2Proof.Machine.execF2 s
  | .f3 => Sys2Proof.Machine.execF3 s
  | .f4 => Sys2Proof.Machine.execF4 s
  | .f5 => Sys2Proof.Machine.execF5 s
  | .f6 => Sys2Proof.Machine.execF6 s
  | .x1 => Sys2Proof.Machine.execX1 s
  | .prologue side => Sys2Proof.Machine.execPrologue side s
  | .sym0 side => Sys2Proof.Machine.execSym0 side s
  | .sym1 side => Sys2Proof.Machine.execSym1 side s
  | .epilogue side => Sys2Proof.Machine.execEpilogue side s
  | .repeatFrame => Sys2Proof.Machine.execRepeatFrame s
  | .tick => Sys2Proof.Machine.execTick s
  | .mstick => Sys2Proof.Machine.execMstick s
  | .edge => Sys2Proof.Machine.execEdge s
  | .nowMillis => Sys2Proof.Machine.execNowMillis s
  | .currentTick => Sys2Proof.Machine.execCurrentTick s
  | .startTimer => Sys2Proof.Machine.execStartTimer s
  | .stopTimer => Sys2Proof.Machine.execStopTimer s
  | .setCarrier on => Sys2Proof.Machine.execSetCarrier on s
  | .getEdgeCount => Sys2Proof.Machine.execGetEdgeCount s
  | .getEdgeBuffer => Sys2Proof.Machine.execGetEdgeBuffer s
  | .clearEdgeBuffer => Sys2Proof.Machine.execClearEdgeBuffer s
  | .enableCapture b => Sys2Proof.Machine.execEnableCapture b s
  | .fsmInit m t => Sys2Proof.Machine.execFsmInit m t s
  | .fsmFire m => Sys2Proof.Machine.execFsmFire m s
  | .fsmDestroy m => Sys2Proof.Machine.execFsmDestroy m s
  | .decRun n => Sys2Proof.Machine.execDecRun n s
  | .txEncode c => Sys2Proof.Machine.execTxEncode c s
  | .txBurst on off => Sys2Proof.Machine.execTxBurst on off s

end Sys2Proof.Machine
end

