-- ==== Sys2Proof/Machine/Fetch.lean ====
section
/-! DEFINITION. Where the next input comes from. The block fetches no instructions (R28); what steps next is
the environment's choice (R69). -/

namespace Sys2Proof.Machine

/-- A choice of the environment as an input (R68). -/
def envCmd : EnvStep → Cmd
  | .tick => .op (encode .tick)
  | .mstick => .op (encode .mstick)
  | .edge => .op (encode .edge)
  | .host w => .op ⟨.hostop, w, 0, 0⟩
  | .reset => .reset

/-- The next input and the state without it: the first that waits, or, where none waits, the environment's
next free choice (log entry 8). -/
def fetch (s : State) : Cmd × State :=
  match s.inbox with
  | c :: rest => (c, { s with inbox := rest })
  | [] => (envCmd (Config.environment s.envSteps), { s with envSteps := s.envSteps + 1 })

/-- A slot put in front of everything that waits. -/
def present (sl : Slot) (s : State) : State := { s with inbox := .op sl :: s.inbox }

/-- Is this an input that an agent of R68 or the platform's RESET makes: an event, a host operation, a
reset? The other operations are fragments of those (R260). -/
def Cmd.isAgentStep : Cmd → Bool
  | .reset => true
  | .op sl => decide (sl.fmt = .event) || decide (sl.fmt = .hostop)

end Sys2Proof.Machine
end

