-- ==== Sys2Proof/Machine/Step.lean ====
section
/-! DEFINITION. One step of the machine: take the next input and carry it out. -/

namespace Sys2Proof.Machine

/-- One step. A parameter set that breaks R7 is refused (U18), a slot that spells no operation is refused
(U9); RESET resets (R320); any other input is the operation it spells. -/
def step (s : State) : Host.Outcome State Fault Refusal :=
  if paramsOk s.cfg = true then
    match fetch s with
    | (.reset, s') => .next (resetEvent s')
    | (.op sl, s') =>
      match decode sl with
      | .ok i => exec i s'
      | .error r => .refused (.undefinedWord r)
  else .refused .illFormedParameters

/-- The state with a bare word of the operation table as the next input, its operand words zero. -/
def State.withFetchWord (s : State) (nbits w : Nat) : State :=
  match tableSlot nbits w with
  | some sl => present sl s
  | none => s

end Sys2Proof.Machine
end

