-- ==== Sys2Proof/Machine/Pseudo.lean ====
section
/-! DEFINITION. The pseudo-operations and the `AT` prefix of the program notation (R114, R116): each is a
fixed sequence of steps, written as the inputs that carry it out. They exist only in the spec's programs. -/

namespace Sys2Proof.Machine

/-- An operation as an input. -/
def opCmd (i : Instr) : Cmd := .op (encode i)

/-- `POLL` = `RX.FIRE`. -/
def pseudoPoll : List Cmd := [opCmd .rxFire]

/-- `SEND c` = `TX.SETCODE c`, `TX.FIRE`. -/
def pseudoSend (c : BitVec 32) : List Cmd := [opCmd (.txSetcode c), opCmd .txFire]

/-- `READFRAME` = `RX.GETCODE`, `RX.GETREP`, `RX.GETERR`, `RX.RESETCODE`. -/
def pseudoReadframe : List Cmd := [opCmd .rxGetcode, opCmd .rxGetrep, opCmd .rxGeterr, opCmd .rxResetcode]

/-- `AT tick=v`: the `TICK` steps that bring a running counter from `now` to `v` (R114). -/
def atTick (w : TickWidth) (now v : Tick) : List Cmd :=
  List.replicate (tickSub w v now).toNat (opCmd .tick)

/-- `AT ms=v`: the `MSTICK` steps that bring the millisecond clock from `now` to `v` (R114). -/
def atMs (now v : BitVec 32) : List Cmd := List.replicate (sub32 v now).toNat (opCmd .mstick)

/-- `EDGES [t0, t1, ...]`: an `AT tick=t: EDGE` for each value, from a running counter at `now` (R116). -/
def pseudoEdges (w : TickWidth) : Tick → List Tick → List Cmd
  | _, [] => []
  | now, t :: rest => atTick w now t ++ (opCmd .edge :: pseudoEdges w t rest)

end Sys2Proof.Machine
end

