-- ==== Sys2Proof/Safety.lean ====
section
/-! DEFINITION. What holds in a good state, in the terms the statements use: the structural invariant that
every operation keeps, the invariant of R48 and R208 that every agent's step keeps, which operations are the
host's, and the environment assumption ENV_TIME (R273). -/

namespace Sys2Proof.Machine

/-- The decoder's working registers are in range and consistent (R27, R30, R102, R172). -/
structure DecOk (d : Dec) : Prop where
  edges_le : d.pos + d.rem ≤ edgeCap
  bits_le : d.bits ≤ frameBits
  init_code : d.state = .init → d.code = 0
  rep_code : d.rep = true → d.code = 0
  pulse_bits : d.state = .symbolPulse → 1 ≤ d.bits
  rep_bits : d.rep = true → d.state = .symbolSilence ∨ d.state = .symbolPulse → d.bits = 0

/-- What every operation keeps, whether an agent's step or a fragment taken by itself: the edge buffer is in
its canonical form and holds exactly the entries below `ecount`, each of `TICK_W` bits (R39, R40); the counts
are in range (R48 clauses (a) and (h)); the counter is of `TICK_W` bits (R45); the stored frame has one of its
shapes (R48 clauses (e) and (f)); an emission in progress stands at a segment of its waveform (R44). -/
structure Structural (s : State) : Prop where
  ebuf_wf : Memory.wf s.ebuf = true
  ebuf_listed : ∀ i, (Memory.read s.ebuf i).isSome = decide (i < s.ecount)
  ebuf_width : ∀ i v, Memory.read s.ebuf i = some v → v.toNat < tickModulus s.cfg.tickW
  ecount_le : s.ecount ≤ edgeCap
  last_le : s.rxLastCount.toNat ≤ edgeCap
  tick_width : s.tick.toNat < tickModulus s.cfg.tickW
  start_width : s.txSegStart.toNat < tickModulus s.cfg.tickW
  dec_ok : DecOk s.dec
  rep_code : s.rxRep = true → s.rxCode = 0
  err_code : s.rxErr = true → s.rxCode = 0 ∧ s.rxRep = false
  proc_seg : s.txProc ≠ .idle → s.txSeg < (procSegments s.cfg s.txProc).length

/-- The invariants of the block (R48, R208), in states whose waiting inputs are agents' steps: fragments
taken by themselves can break them ("provided no step other than the framer's writes `cap_en`", R48). -/
structure BlockInv (s : State) : Prop where
  structural : Structural s
  inbox_agents : s.inbox.all Cmd.isAgentStep = true
  rest_count : s.rxState ≠ .wait → s.rxLastCount = 0
  wait_count : s.rxState = .wait → 1 ≤ s.rxLastCount.toNat
  seen_le : s.rxLastCount.toNat ≤ s.ecount
  off_capture : s.rxState = .off → s.capEn = false
  on_capture : s.rxState ≠ .off → s.capEn = true ∧ s.tickRun = true
  dark_when_idle : s.txProc = .idle → s.carrier = false
  emission : s.txProc = .idle ∨
    (s.txProc = .fire s.txCode ∧ s.txCode ≠ 0 ∧ s.tickRun = true ∧
      ((wave s.cfg s.txCode)[s.txSeg]?).map Prod.fst = some s.carrier)

/-- The operations of the host's side: those that cannot be issued while the host is blocked (R238). The
events, the primitives (which the sequencer calls too) and the arrival of a symbol are not. -/
def hostSideInstr : Instr → Bool
  | .tick | .mstick | .edge => false
  | .nowMillis | .currentTick | .startTimer | .stopTimer | .setCarrier _ | .getEdgeCount
  | .getEdgeBuffer | .clearEdgeBuffer | .enableCapture _ => false
  | .prologue side | .sym0 side | .sym1 side | .epilogue side => decide (side = .send)
  | .repeatFrame => false
  | .rxFire | .rxSeten _ | .rxGetcode | .rxGetrep | .rxGeterr | .rxResetcode | .rxIsactive
  | .txFire | .txSetcode _ | .txIsactive
  | .t1 | .t2 | .t3 | .t4 | .t5 | .t6 | .t7 | .t8 | .t9 | .t10 | .t11
  | .f1 | .f2 | .f3 | .f4 | .f5 | .f6 | .x1
  | .fsmInit _ _ | .fsmFire _ | .fsmDestroy _ | .decRun _ | .txEncode _ | .txBurst _ _ => true

/-- `j` TICK steps. -/
def ticks (j : Nat) (s : State) : State := tickEvent^[j] s

/-- `j` EDGE steps. -/
def edges (j : Nat) (s : State) : State := edgeEvent^[j] s

/-- `n` events are `elapsed / period` to within one event: the quotient is the exact one, so neither bound
rounds (R273). -/
def withinOneEvent (elapsed period n : Nat) : Prop := n * period ≤ elapsed + period ∧ elapsed ≤ (n + 1) * period

/-- `ENV_TIME` (R273) over an interval of `elapsed` nanoseconds in which the counter runs: the number of TICK
events is `elapsed / TICK_PERIOD` and that of MSTICK events `elapsed / 1 ms`, each to within one event. An
assumption on the environment, for the theorems that need it; the step relation does not use it. -/
def EnvTime (cfg : Params) (elapsed tickEvents msEvents : Nat) : Prop :=
  withinOneEvent elapsed cfg.tickPeriodNs tickEvents ∧ withinOneEvent elapsed 1000000 msEvents

end Sys2Proof.Machine
end

