-- ==== Sys2Proof/Certificates/Slice0/Obligations.lean ====
section
/-! DEFINITION. The statements. -/

open Sys2Proof Sys2Proof.Machine

/-! ### The step, the words -/

/-- A step runs the operation that the next waiting slot spells, on the state without that input, and what the
decoder reads is well-formed; the very next step after a bare table word is presented runs the instruction the
decoder reads from it; where nothing waits, the step is the environment's free choice (R69). How inputs wait is
the model's choice (log entries 8, 9 and 10). -/
def Obligations.StepRunsDecodedOperation : Prop :=
  (∀ (s : State) (sl : Slot) (rest : List Cmd) (i : Instr),
    paramsOk s.cfg = true → s.inbox = .op sl :: rest → decode sl = .ok i →
      i.wellFormed = true ∧ step s = exec i { s with inbox := rest }) ∧
  (∀ (s : State) (nbits w : Nat) (i : Instr),
    paramsOk s.cfg = true → decodeTableWord nbits w = some i → step (s.withFetchWord nbits w) = exec i s) ∧
  (∀ s : State, s.inbox = [] →
    step s = step { s with inbox := [envCmd (Config.environment s.envSteps)], envSteps := s.envSteps + 1 })

/-- A parameter set that breaks R7 is refused (R7, U18). In clause (e) the nominal repetition gap is taken at
the set's own time base (log entry 21). -/
def Obligations.IllFormedParametersAreRefused : Prop :=
  (∀ s : State, paramsOk s.cfg = false → step s = .refused .illFormedParameters) ∧
  (∀ cfg : Params, paramsOk cfg = true ↔
    (∀ n ∈ [cfg.txPrologueOn, cfg.txPrologueOff, cfg.txSym0On, cfg.txSym0Off, cfg.txSym1On, cfg.txSym1Off,
        cfg.txEpilogueOn, cfg.txEpilogueOff], 1 ≤ n ∧ n < tickModulus cfg.tickW) ∧
    (∀ w ∈ [cfg.wLeadOn, cfg.wLeadOff, cfg.wRepOff, cfg.wBitOn, cfg.wBit0Off, cfg.wBit1Off],
        w.lo ≤ w.hi ∧ w.hi < tickModulus cfg.tickW) ∧
    (cfg.wLeadOn.lo ≤ cfg.txPrologueOn ∧ cfg.txPrologueOn ≤ cfg.wLeadOn.hi) ∧
    (cfg.wLeadOff.lo ≤ cfg.txPrologueOff ∧ cfg.txPrologueOff ≤ cfg.wLeadOff.hi) ∧
    (cfg.wBitOn.lo ≤ cfg.txSym0On ∧ cfg.txSym0On ≤ cfg.wBitOn.hi) ∧
    (cfg.wBitOn.lo ≤ cfg.txSym1On ∧ cfg.txSym1On ≤ cfg.wBitOn.hi) ∧
    (cfg.wBitOn.lo ≤ cfg.txEpilogueOn ∧ cfg.txEpilogueOn ≤ cfg.wBitOn.hi) ∧
    (cfg.wBit0Off.lo ≤ cfg.txSym0Off ∧ cfg.txSym0Off ≤ cfg.wBit0Off.hi) ∧
    (cfg.wBit1Off.lo ≤ cfg.txSym1Off ∧ cfg.txSym1Off ≤ cfg.wBit1Off.hi) ∧
    ¬(cfg.wBit0Off.lo ≤ cfg.txSym1Off ∧ cfg.txSym1Off ≤ cfg.wBit0Off.hi) ∧
    ¬(cfg.wLeadOff.lo ≤ nominalRepOff cfg ∧ nominalRepOff cfg ≤ cfg.wLeadOff.hi))

/-- Decoding the slot of a well-formed instruction gives it back, for every instruction and every operand. The
layout of a slot is the model's choice (log entry 9). -/
def Obligations.DecodeEncodeRoundTrip : Prop :=
  ∀ i : Instr, i.wellFormed = true → decode (encode i) = .ok i

/-- What decodes is well-formed, and outside the host operations each slot is the only one of its instruction:
no bit of it is ignored. The layout of a slot is the model's choice (log entry 9). -/
def Obligations.EncodeDecodeOneSlotEach : Prop :=
  ∀ (sl : Slot) (i : Instr), decode sl = .ok i →
    i.wellFormed = true ∧ (encode i).fmt = sl.fmt ∧ (sl.fmt ≠ .hostop → encode i = sl)

/-- The host operation table (R111): for each op value, every argument; unused argument bits are ignored, and
the op values 7 and 11 to 15 spell no operation (R108). The words are the spec's own decision D2. -/
def Obligations.HostWordTable : Prop :=
  ∀ arg : BitVec 32,
    decode ⟨.hostop, hostWord 0 arg, 0, 0⟩ = .ok .rxFire ∧
    decode ⟨.hostop, hostWord 1 arg, 0, 0⟩ = .ok (.rxSeten (arg.getLsbD 0)) ∧
    decode ⟨.hostop, hostWord 2 arg, 0, 0⟩ = .ok .rxGetcode ∧
    decode ⟨.hostop, hostWord 3 arg, 0, 0⟩ = .ok .rxGetrep ∧
    decode ⟨.hostop, hostWord 4 arg, 0, 0⟩ = .ok .rxGeterr ∧
    decode ⟨.hostop, hostWord 5 arg, 0, 0⟩ = .ok .rxResetcode ∧
    decode ⟨.hostop, hostWord 6 arg, 0, 0⟩ = .ok .rxIsactive ∧
    decode ⟨.hostop, hostWord 8 arg, 0, 0⟩ = .ok .txFire ∧
    decode ⟨.hostop, hostWord 9 arg, 0, 0⟩ = .ok (.txSetcode arg) ∧
    decode ⟨.hostop, hostWord 10 arg, 0, 0⟩ = .ok .txIsactive ∧
    (∀ op : BitVec 4, op.toNat = 7 ∨ 11 ≤ op.toNat →
      decode ⟨.hostop, hostWord op arg, 0, 0⟩ = .error (.undefinedHostOp op) ∧
      ∀ (s : State) (rest : List Cmd), paramsOk s.cfg = true →
        s.inbox = .op ⟨.hostop, hostWord op arg, 0, 0⟩ :: rest →
          step s = .refused (.undefinedWord (.undefinedHostOp op)))

/-- The code of a decoder, framer or transmitter transition is its from-state's number followed by its
priority, its position among the table's rows of that state (R112, R113); the number has two bits in the first two
classes and one in the third, and the priority as many. The numbers are the spec's own decision D22. -/
def Obligations.TransitionCodesArePositions : Prop :=
  (∀ cfg rd (r : DecRow) (i : Instr), (r, i) ∈ [(DecRow.t1, Instr.t1), (.t2, .t2), (.t3, .t3), (.t4, .t4),
      (.t5, .t5), (.t6, .t6), (.t7, .t7), (.t8, .t8), (.t9, .t9), (.t10, .t10), (.t11, .t11)] →
    (encode i).fmt = .decT ∧
    (encode i).code.toNat = 4 * decStateNumber ((decFsm cfg rd).src r)
      + ((decFsm cfg rd).rows.filter (fun r' => (decFsm cfg rd).src r' = (decFsm cfg rd).src r)).idxOf r) ∧
  (∀ (r : RxRow) (i : Instr), (r, i) ∈ [(RxRow.f1, Instr.f1), (.f2, .f2), (.f3, .f3), (.f4, .f4), (.f5, .f5),
      (.f6, .f6)] →
    (encode i).fmt = .rxfT ∧
    (encode i).code.toNat = 4 * rxStateNumber (framerFsm.src r)
      + (framerFsm.rows.filter (fun r' => framerFsm.src r' = framerFsm.src r)).idxOf r) ∧
  (encode .x1).fmt = .txT ∧
  (encode .x1).code.toNat = 2 * txStateNumber (txFsm.src .x1)
    + (txFsm.rows.filter (fun r' => txFsm.src r' = txFsm.src .x1)).idxOf .x1

/-- Words of the spec's programs and vectors decode to what they stand for (95_test_vectors.md), and so does
every code of the classes TX_T, WIRE, EVENT, PRIM, FSMOP and INTOP, with every operand (R113, D22); every other code of
these six classes spells no operation. Where the operands stand and which numbers they have is the model's choice (log
entries 9, 17 and 24). -/
def Obligations.SampleWordsDecode : Prop :=
  decode ⟨.hostop, 0x100000001, 0, 0⟩ = .ok (.rxSeten true) ∧
  decode ⟨.hostop, 0x1FFFFFFFF, 0, 0⟩ = .ok (.rxSeten true) ∧
  decode ⟨.hostop, 0x920DF10EF, 0, 0⟩ = .ok (.txSetcode 0x20DF10EF) ∧
  decode ⟨.hostop, 0xA00000000, 0, 0⟩ = .ok .txIsactive ∧
  decode ⟨.hostop, 0x700000000, 0, 0⟩ = .error (.undefinedHostOp 7) ∧
  decode ⟨.decT, 0b1101, 0, 0⟩ = .ok .t10 ∧
  decode ⟨.rxfT, 0b1010, 0, 0⟩ = .ok .f6 ∧
  decode ⟨.event, 0b10, 0, 0⟩ = .ok .edge ∧
  decode ⟨.prim, 0b0111, 0, 0⟩ = .ok .clearEdgeBuffer ∧
  decode ⟨.txT, 0b00, 0, 0⟩ = .ok .x1 ∧
  (∀ (w : BitVec 32) (side : WireSide), (w, side) ∈ [((0 : BitVec 32), WireSide.send), (1, .receive)] →
    decode ⟨.wire, 0b000, w, 0⟩ = .ok (.prologue side) ∧ decode ⟨.wire, 0b001, w, 0⟩ = .ok (.sym0 side) ∧
    decode ⟨.wire, 0b010, w, 0⟩ = .ok (.sym1 side) ∧ decode ⟨.wire, 0b011, w, 0⟩ = .ok (.epilogue side)) ∧
  decode ⟨.wire, 0b100, 0, 0⟩ = .ok .repeatFrame ∧
  decode ⟨.event, 0b00, 0, 0⟩ = .ok .tick ∧
  decode ⟨.event, 0b01, 0, 0⟩ = .ok .mstick ∧
  decode ⟨.prim, 0, 0, 0⟩ = .ok .nowMillis ∧
  decode ⟨.prim, 1, 0, 0⟩ = .ok .currentTick ∧
  decode ⟨.prim, 2, 0, 0⟩ = .ok .startTimer ∧
  decode ⟨.prim, 3, 0, 0⟩ = .ok .stopTimer ∧
  decode ⟨.prim, 5, 0, 0⟩ = .ok .getEdgeCount ∧
  decode ⟨.prim, 6, 0, 0⟩ = .ok .getEdgeBuffer ∧
  (∀ (w : BitVec 32) (b : Bool), (w, b) ∈ [((0 : BitVec 32), false), (1, true)] →
    decode ⟨.prim, 4, w, 0⟩ = .ok (.setCarrier b) ∧ decode ⟨.prim, 8, w, 0⟩ = .ok (.enableCapture b)) ∧
  (∀ (w : BitVec 32) (m : FsmId), (w, m) ∈ [((0 : BitVec 32), FsmId.framer), (1, .decoder), (2, .transmitter)] →
    decode ⟨.fsmop, 0b00, w, 0⟩ = .ok (.fsmInit m .own) ∧ decode ⟨.fsmop, 0b00, w, 1⟩ = .ok (.fsmInit m .empty) ∧
    decode ⟨.fsmop, 0b01, w, 0⟩ = .ok (.fsmFire m) ∧ decode ⟨.fsmop, 0b10, w, 0⟩ = .ok (.fsmDestroy m)) ∧
  (∀ n : BitVec 32, n.toNat ≤ edgeCap → decode ⟨.intop, 0b00, n, 0⟩ = .ok (.decRun n)) ∧
  (∀ c : BitVec 32, c ≠ 0 → decode ⟨.intop, 0b01, c, 0⟩ = .ok (.txEncode c)) ∧
  (∀ on off : BitVec 32, on ≠ 0 → off ≠ 0 → decode ⟨.intop, 0b10, on, off⟩ = .ok (.txBurst on off)) ∧
  ∀ (fmt : Format) (codes : Nat), (fmt, codes) ∈ [(Format.txT, 1), (.wire, 5), (.event, 3), (.prim, 9), (.fsmop, 3),
      (.intop, 3)] →
    ∀ (code : BitVec 36) (a b : BitVec 32), codes ≤ code.toNat → decode ⟨fmt, code, a, b⟩ = .error (.unknownCode fmt)

/-! ### Arithmetic -/

/-- Modular subtraction (R100): `(b - a) mod 2^TICK_W`, and the wraparound property: a duration below `2^TICK_W`
is recovered across a wrap of the counter. -/
def Obligations.DurationIsModularSubtraction : Prop :=
  (∀ (s : State) (i : Nat), delta s i = tickSub s.cfg.tickW (edgeAt s (i + 1)) (edgeAt s i)) ∧
  ∀ (w : TickWidth) (a b : Tick), a.toNat < tickModulus w → b.toNat < tickModulus w →
    (tickSub w b a).toNat = (b.toNat + tickModulus w - a.toNat) % tickModulus w ∧
    ∀ d : Nat, d < tickModulus w → b.toNat = (a.toNat + d) % tickModulus w → (tickSub w b a).toNat = d

/-- Command assembly and disassembly (R101): appending shifts left and adds the bit modulo `2^32`; appending the
32 wire bits of a command to 0 gives the command back, first bit at position 31. -/
def Obligations.CommandAssembly : Prop :=
  (∀ (code : BitVec 32) (b : Bool),
    (appendBit code b).toNat = (2 * code.toNat + (if b then 1 else 0)) % 2 ^ 32) ∧
  (∀ (c : BitVec 32) (k : Nat), k < 32 → wireBit c k = c.getLsbD (31 - k)) ∧
  (∀ c : BitVec 32, (List.range 32).foldl (fun code k => appendBit code (wireBit c k)) 0 = c)

/-! ### The host's operations -/

/-- `RX.SETEN b` writes `rx_enabled` and nothing else; the second of two writes is the one that stands, and a
disable is acted on by the next fire from `IDLE` or `WAIT` (R199). -/
def Obligations.RxSetenWritesEnableOnly : Prop :=
  (∀ arg : BitVec 32, decode ⟨.hostop, hostWord 1 arg, 0, 0⟩ = .ok (.rxSeten (arg.getLsbD 0))) ∧
  ∀ (s : State) (b b' : Bool), s.txProc = .idle →
    exec (.rxSeten b) s = .next { s with rxEnabled := b } ∧
    exec (.rxSeten b') { s with rxEnabled := b } = .next { s with rxEnabled := b' } ∧
    (s.rxState = .idle →
      exec .rxFire { s with rxEnabled := false } = exec .f2 { s with rxEnabled := false } ∧
      ∃ t, exec .f2 { s with rxEnabled := false } = .next t ∧ t.rxState = .off) ∧
    (s.rxState = .wait →
      exec .rxFire { s with rxEnabled := false } = exec .f4 { s with rxEnabled := false } ∧
      ∃ t, exec .f4 { s with rxEnabled := false } = .next t ∧ t.rxState = .off)

/-- The five accessors answer what they name and change nothing else (R200, R201, R202, R204, R232); when
`RX.GETREP` answers 1 in a state with the structural invariant, `RX.GETCODE` answers 0 (R201). The answer stands
in the result port, which is the model's (log entry 16). -/
def Obligations.AccessorsAnswerAndChangeNothing : Prop :=
  (decode ⟨.hostop, hostWord 2 0, 0, 0⟩ = .ok .rxGetcode ∧ decode ⟨.hostop, hostWord 3 0, 0, 0⟩ = .ok .rxGetrep ∧
    decode ⟨.hostop, hostWord 4 0, 0, 0⟩ = .ok .rxGeterr ∧
    decode ⟨.hostop, hostWord 6 0, 0, 0⟩ = .ok .rxIsactive ∧
    decode ⟨.hostop, hostWord 10 0, 0, 0⟩ = .ok .txIsactive) ∧
  ∀ s : State, s.txProc = .idle →
    exec .rxGetcode s = .next { s with res := .word s.rxCode } ∧
    exec .rxGetrep s = .next { s with res := .word (if s.rxRep = true then 1 else 0) } ∧
    exec .rxGeterr s = .next { s with res := .word (if s.rxErr = true then 1 else 0) } ∧
    exec .rxIsactive s = .next { s with res := .word (if s.rxState = .wait then 1 else 0) } ∧
    exec .txIsactive s = .next { s with res := .word 0 } ∧
    (Structural s → s.rxRep = true → exec .rxGetcode s = .next { s with res := .word 0 })

/-- `RX.RESETCODE` clears the code and both flags and nothing else. That it clears the flags is the spec's own
decision (R203, D15). -/
def Obligations.RxResetcodeClearsTheFrame : Prop :=
  ∀ s : State, s.txProc = .idle →
    exec .rxResetcode s = .next { s with rxCode := 0, rxRep := false, rxErr := false }

/-- `TX.SETCODE c` stores a nonzero code, overwriting a pending one, and ignores zero (R231). -/
def Obligations.TxSetcodeStoresNonzero : Prop :=
  (∀ c : BitVec 32, decode ⟨.hostop, hostWord 9 c, 0, 0⟩ = .ok (.txSetcode c)) ∧
  ∀ (s : State) (c : BitVec 32), s.txProc = .idle →
    (c ≠ 0 → exec (.txSetcode c) s = .next { s with txCode := c }) ∧
    (c = 0 → exec (.txSetcode c) s = .next s)

/-- While an emission procedure is in progress no operation of the host's side runs, and the three events go on
(R238; that the model refuses rather than waits is U23; log entry 15). -/
def Obligations.HostIsBlockedDuringEmission : Prop :=
  ∀ s : State, s.txProc ≠ .idle →
    (∀ i : Instr, hostSideInstr i = true → exec i s = .refused .hostBlocked) ∧
    exec .tick s = .next (ticks 1 s) ∧ exec .mstick s = .next { s with ms := s.ms + 1 } ∧
    exec .edge s = .next (edges 1 s)

/-! ### The engine -/

/-- The engine's rule (R131), for every table over every component: either the first row in table order whose
from-state is the current state and whose guard is true is taken, or no row matches and nothing changes. -/
def Obligations.FirstTrueGuardFires : Prop :=
  ∀ (ρ q σ : Type) [DecidableEq q] (m : Fsm ρ q σ) (x : σ),
    (∃ (pre post : List ρ) (r : ρ), m.rows = pre ++ r :: post ∧
      m.src r = m.current x ∧ m.guard r x = true ∧
      (∀ r' ∈ pre, m.src r' ≠ m.current x ∨ m.guard r' x = false) ∧
      m.fire x = m.take r x) ∨
    ((∀ r ∈ m.rows, m.src r ≠ m.current x ∨ m.guard r x = false) ∧ m.fire x = x)

/-- `FSM.INIT` sets the state register to the first row's from-state and refuses an empty table (R133). -/
def Obligations.FsmInitSetsFirstFromState : Prop :=
  ∀ s : State, s.txProc = .idle →
    exec (.fsmInit .framer .own) s = .next { s with rxState := .off } ∧
    exec (.fsmInit .decoder .own) s = .next { s with dec := { s.dec with state := .idle } } ∧
    exec (.fsmInit .transmitter .own) s = .next { s with txState := .waiting } ∧
    framerFsm.initial = some .off ∧ (decFsm s.cfg (edgeAt s)).initial = some .idle ∧
    txFsm.initial = some .waiting ∧
    ∀ m, exec (.fsmInit m .empty) s = .refused .emptyTable

/-- One fire of the decoder is exactly one of its eleven rows: some row, taken by itself, does what the fire
does, every other row by itself does nothing, and the edges that remain get fewer (R157, R171). A row as an
instruction of its own is the model's reading (log entry 12). -/
def Obligations.DecoderFireIsExactlyOneRow : Prop :=
  ∀ s : State, s.txProc = .idle → 2 ≤ s.dec.rem → s.dec.pos + 1 < edgeCap →
    ∃ i ∈ [Instr.t1, .t2, .t3, .t4, .t5, .t6, .t7, .t8, .t9, .t10, .t11],
      ∃ t, exec i s = .next t ∧ exec (.fsmFire .decoder) s = .next t ∧ t.dec.rem < s.dec.rem ∧
        ∀ j ∈ [Instr.t1, .t2, .t3, .t4, .t5, .t6, .t7, .t8, .t9, .t10, .t11], j ≠ i → exec j s = .next s

/-- A row of another state is skipped: a decoder or framer row by itself changes nothing when the machine is
in another state than the row's from-state (R131), and neither a decoder row nor a fire of the decoder by itself does
anything when fewer than 2 edges remain (R156; log entry 13). -/
def Obligations.RowsOfOtherStatesDoNothing : Prop :=
  ∀ s : State, s.txProc = .idle →
    (s.dec.state ≠ .idle ∨ s.dec.rem < 2 → exec .t1 s = .next s ∧ exec .t2 s = .next s) ∧
    (s.dec.state ≠ .init ∨ s.dec.rem < 2 →
      exec .t3 s = .next s ∧ exec .t4 s = .next s ∧ exec .t5 s = .next s) ∧
    (s.dec.state ≠ .symbolSilence ∨ s.dec.rem < 2 →
      exec .t6 s = .next s ∧ exec .t7 s = .next s ∧ exec .t8 s = .next s) ∧
    (s.dec.state ≠ .symbolPulse ∨ s.dec.rem < 2 →
      exec .t9 s = .next s ∧ exec .t10 s = .next s ∧ exec .t11 s = .next s) ∧
    (s.dec.rem < 2 → exec (.fsmFire .decoder) s = .next s) ∧
    (s.rxState ≠ .off → exec .f1 s = .next s) ∧
    (s.rxState ≠ .idle → exec .f2 s = .next s ∧ exec .f3 s = .next s) ∧
    (s.rxState ≠ .wait → exec .f4 s = .next s ∧ exec .f5 s = .next s ∧ exec .f6 s = .next s)

/-! ### The decoder's rows -/

/-- `IDLE`: a lead ON inside `W_LEAD_ON` takes T1, any other interval takes T2 (R158, R159). A row that is not
the one that fires does nothing (R131; log entry 12). -/
def Obligations.IdleRowsFollowLeadOnWindow : Prop :=
  (decode ⟨.decT, 0b0000, 0, 0⟩ = .ok .t1 ∧ decode ⟨.decT, 0b0001, 0, 0⟩ = .ok .t2) ∧
  ∀ s : State, s.txProc = .idle → s.dec.state = .idle → 2 ≤ s.dec.rem → s.dec.pos + 1 < edgeCap →
    let d := (delta s s.dec.pos).toNat
    (s.cfg.wLeadOn.lo ≤ d ∧ d ≤ s.cfg.wLeadOn.hi →
      exec .t1 s = .next { s with dec :=
        { s.dec with code := 0, pos := s.dec.pos + 1, rem := s.dec.rem - 1, state := .init } } ∧
      exec .t2 s = .next s) ∧
    (¬(s.cfg.wLeadOn.lo ≤ d ∧ d ≤ s.cfg.wLeadOn.hi) →
      exec .t1 s = .next s ∧
      exec .t2 s = .next { s with dec := { s.dec with pos := s.dec.pos + 2, rem := s.dec.rem - 2 } })

/-- `INIT`: a lead OFF inside `W_LEAD_OFF` takes T3; an interval in neither window takes T5 (R160, R162). In a
state with the structural invariant the code is 0 there (R160). -/
def Obligations.InitRowsAcceptPrologueOrNoise : Prop :=
  (decode ⟨.decT, 0b0100, 0, 0⟩ = .ok .t3 ∧ decode ⟨.decT, 0b0110, 0, 0⟩ = .ok .t5) ∧
  ∀ s : State, s.txProc = .idle → s.dec.state = .init → 2 ≤ s.dec.rem → s.dec.pos + 1 < edgeCap →
    let d := (delta s s.dec.pos).toNat
    (s.cfg.wLeadOff.lo ≤ d ∧ d ≤ s.cfg.wLeadOff.hi →
      exec .t3 s = .next { s with dec := { s.dec with
        bits := 32, rep := false, pos := s.dec.pos + 1, rem := s.dec.rem - 1, state := .symbolSilence } } ∧
      exec .t4 s = .next s ∧ exec .t5 s = .next s) ∧
    (¬(s.cfg.wLeadOff.lo ≤ d ∧ d ≤ s.cfg.wLeadOff.hi) →
      ¬(s.cfg.wRepOff.lo ≤ d ∧ d ≤ s.cfg.wRepOff.hi) →
      exec .t5 s = .next { s with dec := { s.dec with
        pos := s.dec.pos + 1, rem := s.dec.rem - 1, state := .idle } } ∧
      exec .t3 s = .next s ∧ exec .t4 s = .next s) ∧
    (Structural s → s.dec.code = 0)

/-- `INIT`: an interval inside `W_REP_OFF` and not inside `W_LEAD_OFF` takes T4; in a state with the structural
invariant the code is 0, and the next fire, if there is one, takes T6 and ends the run (R161). -/
def Obligations.InitRowAcceptsRepetition : Prop :=
  decode ⟨.decT, 0b0101, 0, 0⟩ = .ok .t4 ∧
  ∀ s : State, s.txProc = .idle → s.dec.state = .init → 2 ≤ s.dec.rem → s.dec.pos + 1 < edgeCap →
    ¬(s.cfg.wLeadOff.lo ≤ (delta s s.dec.pos).toNat ∧ (delta s s.dec.pos).toNat ≤ s.cfg.wLeadOff.hi) →
    s.cfg.wRepOff.lo ≤ (delta s s.dec.pos).toNat → (delta s s.dec.pos).toNat ≤ s.cfg.wRepOff.hi →
    ∃ t, exec .t4 s = .next t ∧
      t = { s with dec := { s.dec with
        bits := 0, rep := true, pos := s.dec.pos + 1, rem := s.dec.rem - 1, state := .symbolSilence } } ∧
      exec .t3 s = .next s ∧ exec .t5 s = .next s ∧ (Structural s → t.dec.code = 0) ∧
      (2 ≤ t.dec.rem → ∃ u, exec .t6 t = .next u ∧ exec (.fsmFire .decoder) t = .next u ∧ u.dec.rem = 0)

/-- `SYMBOL_SILENCE` with bits remaining: an ON part inside `W_BIT_ON` takes T7 (R164). -/
def Obligations.SilenceRowAcceptsBitOn : Prop :=
  decode ⟨.decT, 0b1001, 0, 0⟩ = .ok .t7 ∧
  ∀ s : State, s.txProc = .idle → s.dec.state = .symbolSilence → 2 ≤ s.dec.rem → s.dec.pos + 1 < edgeCap →
    s.dec.bits ≠ 0 →
    s.cfg.wBitOn.lo ≤ (delta s s.dec.pos).toNat → (delta s s.dec.pos).toNat ≤ s.cfg.wBitOn.hi →
      exec .t7 s = .next { s with dec := { s.dec with
        pos := s.dec.pos + 1, rem := s.dec.rem - 1, state := .symbolPulse } } ∧
      exec .t6 s = .next s ∧ exec .t8 s = .next s

/-- `SYMBOL_SILENCE` with no bit remaining: T6 ends the run whatever the interval, and whatever it is no other
row is taken; the target state IDLE is the spec's decision D9 (R163). -/
def Obligations.SilenceRowEndsTheFrame : Prop :=
  ∀ s : State, s.txProc = .idle → s.dec.state = .symbolSilence → 2 ≤ s.dec.rem → s.dec.bits = 0 →
    exec .t6 s = .next { s with dec := { s.dec with rem := 0, state := .idle } } ∧
    exec .t7 s = .next s ∧ exec .t8 s = .next s

/-- `SYMBOL_PULSE`: an OFF part inside `W_BIT0_OFF` appends 0 (T9); one inside `W_BIT1_OFF` only appends 1
(T10); a bit fewer remains (R166, R167). -/
def Obligations.PulseRowsAppendBits : Prop :=
  (decode ⟨.decT, 0b1100, 0, 0⟩ = .ok .t9 ∧ decode ⟨.decT, 0b1101, 0, 0⟩ = .ok .t10) ∧
  ∀ s : State, s.txProc = .idle → s.dec.state = .symbolPulse → 2 ≤ s.dec.rem → s.dec.pos + 1 < edgeCap →
    let d := (delta s s.dec.pos).toNat
    (s.cfg.wBit0Off.lo ≤ d ∧ d ≤ s.cfg.wBit0Off.hi →
      exec .t9 s = .next { s with dec := { s.dec with
        code := BitVec.ofNat 32 (2 * s.dec.code.toNat), bits := s.dec.bits - 1,
        pos := s.dec.pos + 1, rem := s.dec.rem - 1, state := .symbolSilence } } ∧
      exec .t10 s = .next s ∧ exec .t11 s = .next s) ∧
    (¬(s.cfg.wBit0Off.lo ≤ d ∧ d ≤ s.cfg.wBit0Off.hi) → s.cfg.wBit1Off.lo ≤ d ∧ d ≤ s.cfg.wBit1Off.hi →
      exec .t10 s = .next { s with dec := { s.dec with
        code := BitVec.ofNat 32 (2 * s.dec.code.toNat + 1), bits := s.dec.bits - 1,
        pos := s.dec.pos + 1, rem := s.dec.rem - 1, state := .symbolSilence } } ∧
      exec .t9 s = .next s ∧ exec .t11 s = .next s) ∧
    (Structural s → 1 ≤ s.dec.bits)

/-- Noise in a symbol: T8 and T11 return to IDLE, one edge on; the code is cleared only under
`ABORT_CLEARS_CODE` (R165, R168; the spec's decision D10). -/
def Obligations.SymbolNoiseAborts : Prop :=
  ∀ s : State, s.txProc = .idle → 2 ≤ s.dec.rem → s.dec.pos + 1 < edgeCap →
    let d := (delta s s.dec.pos).toNat
    let aborted : State := { s with dec := { s.dec with
      code := if s.cfg.abortClearsCode = true then 0 else s.dec.code,
      pos := s.dec.pos + 1, rem := s.dec.rem - 1, state := .idle } }
    (s.dec.state = .symbolSilence → s.dec.bits ≠ 0 → ¬(s.cfg.wBitOn.lo ≤ d ∧ d ≤ s.cfg.wBitOn.hi) →
      exec .t8 s = .next aborted ∧ exec .t6 s = .next s ∧ exec .t7 s = .next s) ∧
    (s.dec.state = .symbolPulse → ¬(s.cfg.wBit0Off.lo ≤ d ∧ d ≤ s.cfg.wBit0Off.hi) →
      ¬(s.cfg.wBit1Off.lo ≤ d ∧ d ≤ s.cfg.wBit1Off.hi) →
      exec .t11 s = .next aborted ∧ exec .t9 s = .next s ∧ exec .t10 s = .next s)

/-! ### The decoder's run -/

/-- `DEC.RUN` is the drive loop (R155): some number of fires, at most `n - 1` (R171), each with at least 2 edges
remaining, until fewer remain; its result is the final code, the final flag and the error flag; only the working
registers and the result port change. The starting registers are R151's (the spec's decision D11). -/
def Obligations.DecRunIsTheDriveLoop : Prop :=
  ∀ (s : State) (n : BitVec 32), s.txProc = .idle → n.toNat ≤ edgeCap →
    let fire := (decFsm s.cfg (edgeAt s)).fire
    ∃ k, k ≤ n.toNat - 1 ∧ (fire^[k] (decStart n.toNat)).rem < 2 ∧
      (∀ j, j < k → 2 ≤ (fire^[j] (decStart n.toNat)).rem) ∧
      (let d := fire^[k] (decStart n.toNat)
       exec (.decRun n) s = .next { s with dec := d, res := .frame d.code d.rep (decide (d.code = 0) && !d.rep) }) ∧
      (n.toNat ≤ 1 → exec (.decRun n) s = .next { s with dec := decStart n.toNat, res := .frame 0 false true })

/-- `DEC.RUN` is a function of the first `n` entries, of `n` and of the parameters alone: two states that agree
on those give the same result, each changes only its working registers and its result port, and a second run on
the untouched buffer gives the same result again (R170). -/
def Obligations.DecRunDependsOnBufferOnly : Prop :=
  ∀ (s₁ s₂ : State) (n : BitVec 32), s₁.txProc = .idle → s₂.txProc = .idle → n.toNat ≤ edgeCap →
    s₁.cfg = s₂.cfg → (∀ i, i < n.toNat → edgeAt s₁ i = edgeAt s₂ i) →
    ∃ t₁ t₂, exec (.decRun n) s₁ = .next t₁ ∧ exec (.decRun n) s₂ = .next t₂ ∧ t₁.res = t₂.res ∧
      t₁ = { s₁ with dec := t₁.dec, res := t₁.res } ∧ t₂ = { s₂ with dec := t₂.dec, res := t₂.res } ∧
      ∃ u, exec (.decRun n) t₁ = .next u ∧ u.res = t₁.res

/-- The possible shapes of a result: a nonzero code with neither flag, a repetition with code 0, an error with
code 0 (R169). The spec derives this from R172. -/
def Obligations.DecodedFrameShapes : Prop :=
  ∀ (s : State) (n : BitVec 32), s.txProc = .idle → n.toNat ≤ edgeCap →
    ∃ t, exec (.decRun n) s = .next t ∧
      ((∃ c, c ≠ 0 ∧ t.res = .frame c false false) ∨ t.res = .frame 0 true false ∨ t.res = .frame 0 false true)

/-- The round trip (R175): the first 67 edges of the transmitter's waveform of `c`, from any starting tick,
decode to `c`; for `c = 0` to an error (R106). The spec derives this from R157 to R169 and R236. -/
def Obligations.TransmittedFrameDecodesToItsCode : Prop :=
  ∀ (s : State) (c : BitVec 32) (k : Nat), paramsOk s.cfg = true → s.txProc = .idle →
    (∀ j, j < edgeCap → edgeAt s j = edgeStamp s.cfg c k j) →
    ∃ t, exec (.decRun 67) s = .next t ∧ t.res = .frame c false (decide (c = 0))

/-- A lead inside `W_LEAD_ON`, then an OFF interval inside `W_REP_OFF` and not inside `W_LEAD_OFF`: the run
gives a repetition, whatever edges follow (R91, R98, R163). -/
def Obligations.RepetitionGapDecodesAsRepetition : Prop :=
  ∀ (s : State) (n : BitVec 32), s.txProc = .idle → 3 ≤ n.toNat → n.toNat ≤ edgeCap →
    s.cfg.wLeadOn.lo ≤ (delta s 0).toNat → (delta s 0).toNat ≤ s.cfg.wLeadOn.hi →
    ¬(s.cfg.wLeadOff.lo ≤ (delta s 1).toNat ∧ (delta s 1).toNat ≤ s.cfg.wLeadOff.hi) →
    s.cfg.wRepOff.lo ≤ (delta s 1).toNat → (delta s 1).toNat ≤ s.cfg.wRepOff.hi →
    ∃ t, exec (.decRun n) s = .next t ∧ t.res = .frame 0 true false

/-- A buffer in which no interval that `IDLE` looks at (those that begin at an even index) is a lead decodes as
an error (R159, R291). -/
def Obligations.NoLeadDecodesAsError : Prop :=
  ∀ (s : State) (n : BitVec 32), s.txProc = .idle → n.toNat ≤ edgeCap →
    (∀ j, 2 * j + 1 < n.toNat →
      ¬(s.cfg.wLeadOn.lo ≤ (delta s (2 * j)).toNat ∧ (delta s (2 * j)).toNat ≤ s.cfg.wLeadOn.hi)) →
    ∃ t, exec (.decRun n) s = .next t ∧ t.res = .frame 0 false true

/-! ### The framer -/

/-- F1 (R192): enabled in `OFF`, the timer restarts, the buffer is emptied, the capture opens; the frame
registers stay. What the emptied entries hold is not said (R271). The noted count is 0 under the invariants of
R48. -/
def Obligations.FramerArms : Prop :=
  decode ⟨.rxfT, 0b0000, 0, 0⟩ = .ok .f1 ∧
  ∀ s : State, s.txProc = .idle → s.rxState = .off → s.rxEnabled = true →
    ∃ t, exec .f1 s = .next t ∧ t.tick = 0 ∧ t.tickRun = true ∧ t.ecount = 0 ∧ t.capEn = true ∧
      t.rxState = .idle ∧
      t = { s with tick := 0, tickRun := true, ecount := 0, capEn := true, rxState := .idle,
                   ebuf := t.ebuf, ebufEra := t.ebufEra } ∧
      (BlockInv s → t.rxLastCount = 0)

/-- F2 (R193): disabled in `IDLE`, the timer stops, the capture closes; the buffer is not cleared. -/
def Obligations.FramerDisarms : Prop :=
  decode ⟨.rxfT, 0b0100, 0, 0⟩ = .ok .f2 ∧
  ∀ s : State, s.txProc = .idle → s.rxState = .idle → s.rxEnabled = false →
    exec .f2 s = .next { s with tickRun := false, capEn := false, rxState := .off } ∧ exec .f3 s = .next s

/-- F3 and F5 (R194, R196): a count other than the last one seen is noted, with the millisecond clock's reading;
the clock is the spec's decision D13. A disabled receiver takes neither. -/
def Obligations.FramerNotesNewEdges : Prop :=
  ∀ s : State, s.txProc = .idle → BitVec.ofNat 32 s.ecount ≠ s.rxLastCount →
    let noted : State := { s with
      rxLastTime := s.ms, rxLastCount := BitVec.ofNat 32 s.ecount, rxState := .wait }
    (s.rxState = .idle → s.rxEnabled = true → exec .f3 s = .next noted) ∧
    (s.rxState = .wait → s.rxEnabled = true → exec .f5 s = .next noted ∧ exec .f6 s = .next s) ∧
    (s.rxEnabled = false → exec .f3 s = .next s ∧ exec .f5 s = .next s)

/-- F4: disabled in `WAIT`, the partial frame is abandoned without a decode (R195; the row is the spec's
decision D12). -/
def Obligations.FramerAbandonsFrame : Prop :=
  ∀ s : State, s.txProc = .idle → s.rxState = .wait → s.rxEnabled = false →
    exec .f4 s = .next { s with tickRun := false, capEn := false, rxLastCount := 0, rxState := .off } ∧
    exec .f5 s = .next s ∧ exec .f6 s = .next s

/-- F6 (R197): the timeout exceeded with no new edge, `DEC.RUN` over the counted edges gives the frame
registers, the buffer and the count are cleared. The snapshot count is the spec's decision D14. -/
def Obligations.FramerEndsFrame : Prop :=
  ∀ s : State, s.txProc = .idle → s.rxState = .wait → s.rxEnabled = true →
    BitVec.ofNat 32 s.ecount = s.rxLastCount → s.rxLastCount.toNat ≤ edgeCap →
    s.cfg.rxTimeoutMs < (s.ms - s.rxLastTime).toNat →
    ∃ t u, exec .f6 s = .next t ∧ exec (.decRun s.rxLastCount) s = .next u ∧
      u.res = .frame t.rxCode t.rxRep t.rxErr ∧ t.dec = u.dec ∧ t.ecount = 0 ∧
      t = { s with rxCode := t.rxCode, rxRep := t.rxRep, rxErr := t.rxErr, rxLastCount := 0, rxState := .idle,
                   ecount := 0, dec := t.dec, ebuf := t.ebuf, ebufEra := t.ebufEra }

/-- `RX.FIRE` and `FSM.FIRE` on the framer take the first row of the table whose guard is true, and do nothing
where none is (R191, R198, R302; the order of the rows is the spec's decision D12). -/
def Obligations.RxFireTakesFirstRow : Prop :=
  ∀ s : State, s.txProc = .idle →
    let new := BitVec.ofNat 32 s.ecount ≠ s.rxLastCount
    let late := s.cfg.rxTimeoutMs < (s.ms - s.rxLastTime).toNat
    exec (.fsmFire .framer) s = exec .rxFire s ∧
    (s.rxState = .off → s.rxEnabled = true → exec .rxFire s = exec .f1 s) ∧
    (s.rxState = .off → s.rxEnabled = false → exec .rxFire s = .next s) ∧
    (s.rxState = .idle → s.rxEnabled = false → exec .rxFire s = exec .f2 s) ∧
    (s.rxState = .idle → s.rxEnabled = true → new → exec .rxFire s = exec .f3 s) ∧
    (s.rxState = .idle → s.rxEnabled = true → ¬new → exec .rxFire s = .next s) ∧
    (s.rxState = .wait → s.rxEnabled = false → exec .rxFire s = exec .f4 s) ∧
    (s.rxState = .wait → s.rxEnabled = true → new → exec .rxFire s = exec .f5 s) ∧
    (s.rxState = .wait → s.rxEnabled = true → ¬new → late → exec .rxFire s = exec .f6 s) ∧
    (s.rxState = .wait → s.rxEnabled = true → ¬new → ¬late → exec .rxFire s = .next s)

/-- `RX.FIRE` completes in every state with the structural invariant, and changes neither the parameters, nor
the enable, nor the clock it reads, nor anything of the transmit side (R198). The table's order is the spec's
decision D12. -/
def Obligations.RxFireCompletes : Prop :=
  ∀ s : State, s.txProc = .idle → Structural s →
    ∃ t, exec .rxFire s = .next t ∧ t.cfg = s.cfg ∧ t.rxEnabled = s.rxEnabled ∧ t.ms = s.ms ∧
      t.txState = s.txState ∧ t.txCode = s.txCode ∧ t.txProc = s.txProc ∧ t.txSeg = s.txSeg ∧
      t.txSegStart = s.txSegStart ∧ t.carrier = s.carrier ∧ t.res = s.res ∧ t.inbox = s.inbox

/-- Once the count has reached the capacity and a fire has seen it, any number of further edges changes nothing:
the next fire does not restart the timeout, and where the timeout is exceeded it ends the frame (R339, R43). -/
def Obligations.SaturatedEdgesAreInvisible : Prop :=
  ∀ (s : State) (j : Nat), s.txProc = .idle → s.ecount = edgeCap → s.rxLastCount = 67 →
    edges j s = s ∧ exec .edge (edges j s) = .next (edges (j + 1) s) ∧ ∃ t, exec .rxFire (edges j s) = .next t ∧ t.rxLastTime = s.rxLastTime ∧
      (s.rxState = .wait → s.rxEnabled = true → s.cfg.rxTimeoutMs < (s.ms - s.rxLastTime).toNat →
        t.rxState = .idle)

/-! ### The transmitter -/

/-- `TX.FIRE` with a pending code emits the waveform (R233, R236, R237): after `j` TICK steps, for every `j`
below `Dur(c)`, the carrier is the waveform's level at `j`; after exactly `Dur(c)` of them the host is unblocked, the
carrier is off, the code is cleared, the counter runs on, and nothing else has changed. The TICK steps are those of the
instruction `TICK` (R261). The exact segment lengths are the spec's decision D19. -/
def Obligations.TxFireEmitsTheWaveform : Prop :=
  ∀ (s : State) (c : BitVec 32), paramsOk s.cfg = true → s.txProc = .idle → s.txCode = c → c ≠ 0 →
    ∃ t₀, exec .txFire s = .next t₀ ∧ exec .x1 s = .next t₀ ∧ exec (.fsmFire .transmitter) s = .next t₀ ∧
      (∀ j, exec .tick (ticks j t₀) = .next (ticks (j + 1) t₀)) ∧
      (∀ j, j < dur s.cfg c →
        ticks j t₀ = { s with
          tick := tickOf s.cfg.tickW j, tickRun := true, carrier := levelAt (wave s.cfg c) j, txProc := .fire c,
          txSeg := (ticks j t₀).txSeg, txSegStart := (ticks j t₀).txSegStart }) ∧
      ticks (dur s.cfg c) t₀ = { s with
        tick := tickOf s.cfg.tickW (dur s.cfg c), tickRun := true, carrier := false, txProc := .idle,
        txSeg := 0, txSegStart := 0, txCode := 0 }

/-- `TX.FIRE` with no pending code does nothing and takes no time (R233); `FSM.DESTROY` changes no state (R134,
the spec's decision D30). -/
def Obligations.IdleFireAndDestroyDoNothing : Prop :=
  ∀ s : State, s.txProc = .idle →
    (s.txCode = 0 →
      exec .txFire s = .next s ∧ exec .x1 s = .next s ∧ exec (.fsmFire .transmitter) s = .next s) ∧
    ∀ m, exec (.fsmDestroy m) s = .next s

/-- `TX.ENCODE(c)` by itself emits the same waveform and leaves the pending code (R234; log entry 25). That the
counter runs on is D18's, the exact lengths are D19's. -/
def Obligations.TxEncodeEmitsTheWaveform : Prop :=
  ∀ (s : State) (c : BitVec 32), paramsOk s.cfg = true → s.txProc = .idle →
    ∃ t₀, exec (.txEncode c) s = .next t₀ ∧ (∀ j, exec .tick (ticks j t₀) = .next (ticks (j + 1) t₀)) ∧
      (∀ j, j < dur s.cfg c →
        ticks j t₀ = { s with
          tick := tickOf s.cfg.tickW j, tickRun := true, carrier := levelAt (wave s.cfg c) j,
          txProc := .encode c, txSeg := (ticks j t₀).txSeg, txSegStart := (ticks j t₀).txSegStart }) ∧
      ticks (dur s.cfg c) t₀ = { s with
        tick := tickOf s.cfg.tickW (dur s.cfg c), tickRun := true, carrier := false, txProc := .idle,
        txSeg := 0, txSegStart := 0 }

/-- `TX.BURST(on, off)` with the counter running: the carrier is on for exactly `on` TICK steps, then off for
exactly `off`, from any value of the counter, across a wrap too (R235, R241; the exactness is the spec's
decision D19); a count outside its range is refused (log entry 23). -/
def Obligations.TxBurstTiming : Prop :=
  ∀ (s : State) (on off : BitVec 32), s.txProc = .idle →
    (on ≠ 0 ∧ off ≠ 0 ∧ on.toNat < tickModulus s.cfg.tickW ∧ off.toNat < tickModulus s.cfg.tickW →
      s.tickRun = true → s.tick.toNat < tickModulus s.cfg.tickW →
      ∃ t₀, exec (.txBurst on off) s = .next t₀ ∧ (∀ j, exec .tick (ticks j t₀) = .next (ticks (j + 1) t₀)) ∧
        (∀ j, j < on.toNat + off.toNat →
          ticks j t₀ = { s with
            tick := tickOf s.cfg.tickW (s.tick.toNat + j), carrier := decide (j < on.toNat),
            txProc := .burst on.toNat off.toNat,
            txSeg := (ticks j t₀).txSeg, txSegStart := (ticks j t₀).txSegStart }) ∧
        ticks (on.toNat + off.toNat) t₀ = { s with
          tick := tickOf s.cfg.tickW (s.tick.toNat + (on.toNat + off.toNat)), carrier := false,
          txProc := .idle, txSeg := 0, txSegStart := 0 }) ∧
    (¬(on ≠ 0 ∧ off ≠ 0 ∧ on.toNat < tickModulus s.cfg.tickW ∧ off.toNat < tickModulus s.cfg.tickW) →
      exec (.txBurst on off) s = .refused .burstOutOfRange)

/-- The waveform is R236's: 68 segments, ON and OFF in turn; the prologue's counts, then the counts of the 32
bits from the most significant on, then the epilogue's; its length is `Dur(c)`. The spec derives this from R234 and
R235. -/
def Obligations.WaveformShape : Prop :=
  ∀ (cfg : Params) (c : BitVec 32),
    (wave cfg c).length = 68 ∧ waveTicks (wave cfg c) = dur cfg c ∧
    (∀ j, j < 68 → ((wave cfg c)[j]?).map Prod.fst = some (decide (j % 2 = 0))) ∧
    (wave cfg c)[0]? = some (true, cfg.txPrologueOn) ∧ (wave cfg c)[1]? = some (false, cfg.txPrologueOff) ∧
    (∀ k, k < 32 →
      (wave cfg c)[2 + 2 * k]? = some (true, if c.getLsbD (31 - k) then cfg.txSym1On else cfg.txSym0On) ∧
      (wave cfg c)[3 + 2 * k]? = some (false, if c.getLsbD (31 - k) then cfg.txSym1Off else cfg.txSym0Off)) ∧
    (wave cfg c)[66]? = some (true, cfg.txEpilogueOn) ∧ (wave cfg c)[67]? = some (false, cfg.txEpilogueOff)

/-! ### The wire symbols -/

/-- A symbol sent is one burst with its nominal counts from the present tick; a symbol received is an edge, its
ON ticks, an edge, its OFF ticks, put before what else waits (R90, R92; log entry 17). -/
def Obligations.WireSymbols : Prop :=
  ∀ (s : State) (i : WireSide → Instr) (on off : Nat),
    (i, on, off) ∈ [(Instr.prologue, s.cfg.txPrologueOn, s.cfg.txPrologueOff),
      (Instr.sym0, s.cfg.txSym0On, s.cfg.txSym0Off), (Instr.sym1, s.cfg.txSym1On, s.cfg.txSym1Off),
      (Instr.epilogue, s.cfg.txEpilogueOn, s.cfg.txEpilogueOff)] →
    (s.txProc = .idle → exec (i .send) s = .next { s with
      txProc := .burst on off, txSeg := 0, txSegStart := s.tick, carrier := true }) ∧
    exec (i .receive) s = .next { s with
      inbox := .op (encode .edge) :: (List.replicate on (.op (encode .tick))
        ++ .op (encode .edge) :: (List.replicate off (.op (encode .tick)) ++ s.inbox)) }

/-- A repetition frame arrives (R91, R93): four edges, with some ON time inside `W_LEAD_ON`, some OFF time
inside `W_REP_OFF`, and some final ON time between them. The times are free values (log entry 18). -/
def Obligations.RepeatFrameArrives : Prop :=
  ∀ s : State, paramsOk s.cfg = true →
    ∃ on off final : Nat, (s.cfg.wLeadOn.lo ≤ on ∧ on ≤ s.cfg.wLeadOn.hi) ∧
      (s.cfg.wRepOff.lo ≤ off ∧ off ≤ s.cfg.wRepOff.hi) ∧ (1 ≤ final ∧ final < tickModulus s.cfg.tickW) ∧
      ∃ t, exec .repeatFrame s = .next t ∧
        t = { s with
          inbox := .op (encode .edge) :: (List.replicate on (.op (encode .tick))
            ++ .op (encode .edge) :: (List.replicate off (.op (encode .tick))
            ++ .op (encode .edge) :: (List.replicate final (.op (encode .tick))
            ++ .op (encode .edge) :: s.inbox))),
          fresh := t.fresh }

/-! ### Events and primitives -/

/-- `TICK` is one TICK step in every state, during an emission too; outside an emission (R261) a running counter
goes up by one modulo `2^TICK_W`, a stopped one stays (the spec's decision D18); `MSTICK` (R262): the millisecond clock
goes up by one modulo `2^32`; nothing else changes. -/
def Obligations.ClocksCountModulo : Prop :=
  ∀ s : State,
    exec .tick s = .next (ticks 1 s) ∧
    (s.txProc = .idle → s.tick.toNat < tickModulus s.cfg.tickW →
      ∃ t, exec .tick s = .next t ∧ t = { s with tick := t.tick } ∧
        (s.tickRun = true → t.tick.toNat = (s.tick.toNat + 1) % tickModulus s.cfg.tickW) ∧
        (s.tickRun = false → t.tick = s.tick)) ∧
    ∃ t, exec .mstick s = .next t ∧ t = { s with ms := t.ms } ∧ t.ms.toNat = (s.ms.toNat + 1) % 2 ^ 32

/-- `EDGE` with the capture open and room in the buffer (R263): the timestamp is stored at index `ecount`, the
count goes up by one, every other entry reads as before, nothing else changes. That the entry is the timestamp
is the spec's decision D3. -/
def Obligations.EdgeStoresTimestamp : Prop :=
  ∀ s : State, s.capEn = true → s.ecount < edgeCap →
    ∃ t, exec .edge s = .next t ∧ t.ecount = s.ecount + 1 ∧ edgeAt t s.ecount = s.tick ∧
      (∀ i, i ≠ s.ecount → edgeAt t i = edgeAt s i) ∧
      t = { s with ebuf := t.ebuf, ecount := s.ecount + 1 }

/-- A capture that finds the buffer full writes nothing, changes no state and signals nothing (R62); nor does
one that finds the capture closed. -/
def Obligations.EdgeFullChangesNothing : Prop :=
  ∀ s : State, s.ecount = edgeCap ∨ s.capEn = false → exec .edge s = .next s

/-- The primitives that only return a value (R264, R265, R269, R270): the result port takes it, nothing else
changes; the edge count is at most 67. The result port is the model's (log entry 16); the view's form is
D3's. -/
def Obligations.ReadingPrimitives : Prop :=
  ∀ s : State,
    exec .nowMillis s = .next { s with res := .word s.ms } ∧
    exec .currentTick s = .next { s with res := .word s.tick } ∧
    exec .getEdgeCount s = .next { s with res := .word (BitVec.ofNat 32 s.ecount) } ∧
    exec .getEdgeBuffer s = .next { s with res := .view s.ebuf } ∧
    (Structural s → (BitVec.ofNat 32 s.ecount).toNat = s.ecount ∧ s.ecount ≤ 67)

/-- The primitives that write (R266 to R268, R271, R272): the elements they name and nothing else; after a clear
the count is 0 and the capture enable is as before. What the timer primitives do is the spec's decision D18,
what a clear keeps is D17's (log entry 6). -/
def Obligations.WritingPrimitives : Prop :=
  ∀ (s : State) (b : Bool),
    exec .startTimer s = .next { s with tick := 0, tickRun := true } ∧
    exec .stopTimer s = .next { s with tickRun := false } ∧
    exec (.setCarrier b) s = .next { s with carrier := b } ∧
    exec (.enableCapture b) s = .next { s with capEn := b } ∧
    ∃ t, exec .clearEdgeBuffer s = .next t ∧ t.ecount = 0 ∧
      t = { s with ecount := 0, ebuf := t.ebuf, ebufEra := t.ebufEra }

/-! ### Reset -/

/-- The state registers at reset are the first rows' from-states; the decoder's takes its first row's at the
start of a run (R321). -/
def Obligations.ResetStateRegisters : Prop :=
  (∀ s : State, (resetEvent s).rxState = .off ∧ (resetEvent s).txState = .waiting) ∧
  ∀ (cfg : Params) (tk ms : BitVec 32),
    (State.resetWith cfg tk ms).rxState = .off ∧ (State.resetWith cfg tk ms).txState = .waiting ∧
    framerFsm.initial = some (State.resetWith cfg tk ms).rxState ∧
    txFsm.initial = some (State.resetWith cfg tk ms).txState ∧
    ∀ rd n, (decFsm cfg rd).initial = some (decStart n).state

/-- A RESET input puts every element at its reset value, also in the middle of an emission or of a reception
(R320, R322, R325; the values are the spec's decision D16), and keeps the parameters (R38). That it also keeps what
still waits is the model's choice (log entries 7 and 8). -/
def Obligations.ResetEventValues : Prop :=
  ∀ (s : State) (rest : List Cmd), paramsOk s.cfg = true → s.inbox = .reset :: rest →
    ∃ t, step s = .next t ∧ t.rxState = .off ∧ t.txState = .waiting ∧ t.rxCode = 0 ∧ t.rxRep = false ∧
      t.rxErr = false ∧ t.rxEnabled = false ∧ t.rxLastCount = 0 ∧ t.rxLastTime = 0 ∧ t.txCode = 0 ∧
      t.txProc = .idle ∧ t.ecount = 0 ∧ t.capEn = false ∧ t.tickRun = false ∧ t.carrier = false ∧
      t.cfg = s.cfg ∧ t.inbox = rest

/-- After reset the block is inert (R324): edges change nothing, the counter is stopped, the carrier is off, and
both fires are no-ops. The spec derives this from R321 and R322 (D16). -/
def Obligations.ResetIsInert : Prop :=
  ∀ (cfg : Params) (tk ms : BitVec 32),
    let s := State.resetWith cfg tk ms
    exec .edge s = .next s ∧ exec .tick s = .next s ∧ exec .rxFire s = .next s ∧ exec .txFire s = .next s ∧
      s.carrier = false

/-! ### Invariants and rules of the whole machine -/

/-- Every step, of an agent or of a fragment taken by itself, keeps the structural invariant (R39, R40, R44,
R45, R48 clauses (a), (e), (f), (h), R172). -/
def Obligations.StepKeepsStructural : Prop :=
  ∀ s t : State, Structural s → step s = .next t → Structural t

/-- No step from a state with the structural invariant faults: no condition of the block is fatal (R290). -/
def Obligations.NoStepFaults : Prop :=
  ∀ (s : State) (f : Fault), Structural s → step s ≠ .fault f

/-- The invariants of R48 and R208 are kept by every step of a state in which only agents' steps wait, the
environment's free choices among them. The spec derives them; the bounds beyond its clauses are the model's. -/
def Obligations.AgentStepKeepsBlockInv : Prop :=
  ∀ s t : State, BlockInv s → step s = .next t → BlockInv t

/-- The invariants of R48 and R208 hold after reset, for every parameter set. The spec derives them; the
parameters and clock values at reset are log entries 1 to 3. -/
def Obligations.ResetHasBlockInv : Prop :=
  ∀ (cfg : Params) (tk ms : BitVec 32), tk.toNat < tickModulus cfg.tickW →
    BlockInv (State.resetWith cfg tk ms) ∧ BlockInv State.reset

/-- No step changes the parameters (R38). -/
def Obligations.ParametersNeverChange : Prop :=
  ∀ s t : State, step s = .next t → t.cfg = s.cfg

/-- Who writes the registers (R25, R34, R66, R307, R308): of all the instructions, only those named change the
element. The spec derives R25. An instruction here includes the fragments and the wire symbols taken by themselves (log
entries 11, 17 and 25). -/
def Obligations.RegistersHaveOnlyTheirWriters : Prop :=
  ∀ (i : Instr) (s t : State), exec i s = .next t →
    (t.rxEnabled ≠ s.rxEnabled → ∃ b, i = .rxSeten b) ∧
    ((t.rxCode, t.rxRep, t.rxErr) ≠ (s.rxCode, s.rxRep, s.rxErr) →
      i ∈ [Instr.f6, .rxFire, .fsmFire .framer, .rxResetcode]) ∧
    (t.rxLastCount ≠ s.rxLastCount → i ∈ [Instr.f3, .f4, .f5, .f6, .rxFire, .fsmFire .framer]) ∧
    (t.rxLastTime ≠ s.rxLastTime → i ∈ [Instr.f3, .f5, .rxFire, .fsmFire .framer]) ∧
    (t.rxState ≠ s.rxState →
      i ∈ [Instr.f1, .f2, .f3, .f4, .f5, .f6, .rxFire, .fsmFire .framer, .fsmInit .framer .own]) ∧
    (t.capEn ≠ s.capEn →
      i ∈ [Instr.f1, .f2, .f4, .rxFire, .fsmFire .framer] ∨ ∃ b, i = .enableCapture b) ∧
    (s.ecount < t.ecount → i = .edge) ∧
    ((t.ecount, t.ebuf) ≠ (s.ecount, s.ebuf) →
      i ∈ [Instr.edge, .clearEdgeBuffer, .f1, .f6, .rxFire, .fsmFire .framer]) ∧
    (t.txCode ≠ s.txCode → i = .tick ∨ ∃ c, i = .txSetcode c) ∧
    (t.ms ≠ s.ms → i = .mstick) ∧ t.txState = s.txState ∧
    (t.tick ≠ s.tick →
      i ∈ [Instr.tick, .startTimer, .f1, .rxFire, .fsmFire .framer, .txFire, .x1, .fsmFire .transmitter] ∨
      ∃ c, i = .txEncode c) ∧
    (t.tickRun ≠ s.tickRun →
      i ∈ [Instr.startTimer, .stopTimer, .f1, .f2, .f4, .rxFire, .fsmFire .framer, .txFire, .x1,
        .fsmFire .transmitter] ∨ ∃ c, i = .txEncode c) ∧
    (t.carrier ≠ s.carrier →
      i ∈ [Instr.tick, .txFire, .x1, .fsmFire .transmitter, .prologue .send, .sym0 .send, .sym1 .send,
        .epilogue .send] ∨
      (∃ b, i = .setCarrier b) ∨ (∃ c, i = .txEncode c) ∨ ∃ on off, i = .txBurst on off) ∧
    ((t.txProc, t.txSeg, t.txSegStart) ≠ (s.txProc, s.txSeg, s.txSegStart) →
      i ∈ [Instr.tick, .txFire, .x1, .fsmFire .transmitter, .prologue .send, .sym0 .send, .sym1 .send,
        .epilogue .send] ∨ (∃ c, i = .txEncode c) ∨ ∃ on off, i = .txBurst on off) ∧
    ((t.dec.code, t.dec.bits, t.dec.rep, t.dec.pos, t.dec.rem)
        ≠ (s.dec.code, s.dec.bits, s.dec.rep, s.dec.pos, s.dec.rem) →
      i ∈ [Instr.t1, .t2, .t3, .t4, .t5, .t6, .t7, .t8, .t9, .t10, .t11, .fsmFire .decoder, .f6, .rxFire,
        .fsmFire .framer] ∨ ∃ n, i = .decRun n) ∧
    (t.dec.state ≠ s.dec.state →
      i ∈ [Instr.t1, .t2, .t3, .t4, .t5, .t6, .t7, .t8, .t9, .t10, .t11, .fsmFire .decoder, .f6, .rxFire,
        .fsmFire .framer, .fsmInit .decoder .own] ∨ ∃ n, i = .decRun n)
end

