-- ==== Sys2Proof/Laws/Arith.lean ====
section
/-! SUPPORT. What the arithmetic of Operands.lean does, as natural numbers. -/

namespace Sys2Proof.Machine

theorem tickModulus_pos (w : TickWidth) : 0 < tickModulus w := by cases w <;> decide

theorem tickModulus_dvd (w : TickWidth) : tickModulus w ∣ 2 ^ 32 := by cases w <;> decide

/-- Truncation is the remainder modulo `2 ^ TICK_W`. -/
theorem trunc_toNat (w : TickWidth) (x : BitVec 32) : (trunc w x).toNat = x.toNat % tickModulus w := by
  cases w with
  | w16 =>
    simp only [trunc, BitVec.toNat_and, tickModulus]
    exact Nat.and_two_pow_sub_one_eq_mod x.toNat 16
  | w32 => simp only [trunc, tickModulus]; exact (Nat.mod_eq_of_lt x.isLt).symm

theorem trunc_lt (w : TickWidth) (x : BitVec 32) : (trunc w x).toNat < tickModulus w := by
  rw [trunc_toNat]; exact Nat.mod_lt _ (tickModulus_pos w)

theorem tickOf_toNat (w : TickWidth) (n : Nat) : (tickOf w n).toNat = n % tickModulus w := by
  rw [tickOf, trunc_toNat, BitVec.toNat_ofNat, Nat.mod_mod_of_dvd _ (tickModulus_dvd w)]

theorem tickSucc_toNat (w : TickWidth) (a : Tick) : (tickSucc w a).toNat = (a.toNat + 1) % tickModulus w := by
  rw [tickSucc, trunc_toNat, BitVec.toNat_add, Nat.mod_mod_of_dvd _ (tickModulus_dvd w)]
  rfl

theorem tickSucc_tickOf (w : TickWidth) (n : Nat) : tickSucc w (tickOf w n) = tickOf w (n + 1) := by
  apply BitVec.eq_of_toNat_eq
  rw [tickSucc_toNat, tickOf_toNat, tickOf_toNat, Nat.mod_add_mod]

/-- The difference of two counter values, the later one `d` ticks on. -/
theorem tickSub_tickOf (w : TickWidth) (n d : Nat) (hd : d < tickModulus w) :
    (tickSub w (tickOf w (n + d)) (tickOf w n)).toNat = d := by
  rw [tickSub, trunc_toNat, BitVec.toNat_sub, Nat.mod_mod_of_dvd _ (tickModulus_dvd w), tickOf_toNat, tickOf_toNat]
  cases w <;> simp only [tickModulus] at * <;> omega

theorem tickOf_of_lt (w : TickWidth) (a : Tick) (ha : a.toNat < tickModulus w) : tickOf w a.toNat = a := by
  apply BitVec.eq_of_toNat_eq
  rw [tickOf_toNat, Nat.mod_eq_of_lt ha]

theorem appendBit_toNat (code : BitVec 32) (b : Bool) :
    (appendBit code b).toNat = (2 * code.toNat + b.toNat) % 2 ^ 32 := by
  cases b <;> simp [appendBit, shl32, boolWord, BitVec.toNat_add, BitVec.toNat_shiftLeft, Nat.shiftLeft_eq]
  <;> omega

/-- A window test as two comparisons. -/
theorem within_iff (n : Nat) (w : Window) : within n w = true ↔ w.lo ≤ n ∧ n ≤ w.hi := by simp [within]

theorem inW_iff (d : Tick) (w : Window) : inW d w = true ↔ w.lo ≤ d.toNat ∧ d.toNat ≤ w.hi := within_iff _ _

/-- A free count of a window is in the window. -/
theorem pickIn_mem (w : Window) (n : Nat) (h : w.lo ≤ w.hi) : w.lo ≤ pickIn w n ∧ pickIn w n ≤ w.hi := by
  have := Nat.mod_lt n (show 0 < w.hi - w.lo + 1 by omega)
  simp only [pickIn]
  omega

theorem pickCount_mem (w : TickWidth) (n : Nat) : 1 ≤ pickCount w n ∧ pickCount w n < tickModulus w := by
  have h : 1 < tickModulus w := by cases w <;> decide
  have := Nat.mod_lt n (show 0 < tickModulus w - 1 by omega)
  simp only [pickCount]
  omega

theorem countOk_iff (w : TickWidth) (n : Nat) : countOk w n = true ↔ 1 ≤ n ∧ n < tickModulus w := by
  simp [countOk]

theorem windowOk_iff (w : TickWidth) (v : Window) : windowOk w v = true ↔ v.lo ≤ v.hi ∧ v.hi < tickModulus w := by
  simp [windowOk]

/-- The error flag is up for a zero code that is no repetition, and only then. -/
theorem errFlag_iff (code : BitVec 32) (rep : Bool) : errFlag code rep = true ↔ code = 0 ∧ rep = false := by
  simp [errFlag]

end Sys2Proof.Machine
end

