-- ==== Sys2Proof/Laws/Decode.lean ====
section
/-! SUPPORT. The parts of the decoder: the fields of a host word, and what each operand reader accepts. -/

namespace Sys2Proof

@[simp] theorem hostOp_hostWord (op : BitVec 4) (arg : BitVec 32) : hostOp (hostWord op arg) = op := by
  apply BitVec.eq_of_getLsbD_eq
  intro i hi
  rw [hostOp, BitVec.getLsbD_extractLsb']
  simp only [hi, decide_true, Bool.true_and]
  refine (BitVec.getLsbD_append (x := op) (y := arg)).trans ?_
  simp

@[simp] theorem hostArg_hostWord (op : BitVec 4) (arg : BitVec 32) : hostArg (hostWord op arg) = arg := by
  apply BitVec.eq_of_getLsbD_eq
  intro i hi
  rw [hostArg, BitVec.getLsbD_extractLsb']
  simp only [hi, decide_true, Bool.true_and, Nat.zero_add]
  refine (BitVec.getLsbD_append (x := op) (y := arg)).trans ?_
  simp [hi]

/-- An operation without operand words accepts zero words only. -/
theorem Slot.plain_ok {sl : Slot} {i j : Instr} (h : sl.plain i = .ok j) :
    j = i ∧ sl.arg0 = 0 ∧ sl.arg1 = 0 := by
  unfold Slot.plain at h
  split at h
  · rename_i h0; cases h; exact ⟨rfl, h0⟩
  · cases h

/-- An operation with one operand word accepts what its reader accepts, and a zero second word. -/
theorem Slot.oneOperand_ok {α : Type} {sl : Slot} {f : BitVec 32 → Option α} {i : α → Instr} {j : Instr}
    (h : sl.oneOperand f i = .ok j) : ∃ a, f sl.arg0 = some a ∧ j = i a ∧ sl.arg1 = 0 := by
  unfold Slot.oneOperand at h
  split at h
  · rename_i h1
    split at h
    · rename_i a ha; cases h; exact ⟨a, ha, rfl, h1⟩
    · cases h
  · cases h

/-- Each operand reader is undone by the operand's word. -/
theorem boolWord_of_boolOperand {w : BitVec 32} {b : Bool} (h : boolOperand w = some b) : boolWord b = w := by
  unfold boolOperand at h
  split at h <;> cases h <;> (apply BitVec.eq_of_toNat_eq; simp [boolWord, *])

theorem sideWord_of_sideOperand {w : BitVec 32} {d : WireSide} (h : sideOperand w = some d) : sideWord d = w := by
  unfold sideOperand at h
  split at h <;> cases h <;> (apply BitVec.eq_of_toNat_eq; simp [sideWord, *])

theorem fsmWord_of_fsmOperand {w : BitVec 32} {m : FsmId} (h : fsmOperand w = some m) : fsmWord m = w := by
  unfold fsmOperand at h
  split at h <;> cases h <;> (apply BitVec.eq_of_toNat_eq; simp [fsmWord, *])

theorem tableWord_of_tableOperand {w : BitVec 32} {t : TableArg} (h : tableOperand w = some t) :
    tableWord t = w := by
  unfold tableOperand at h
  split at h <;> cases h <;> (apply BitVec.eq_of_toNat_eq; simp [tableWord, *])

theorem countOperand_eq {w n : BitVec 32} (h : countOperand w = some n) : n = w ∧ w.toNat ≤ edgeCap := by
  unfold countOperand at h
  split at h
  · rename_i hw; cases h; exact ⟨rfl, hw⟩
  · cases h

theorem nonzeroOperand_eq {w c : BitVec 32} (h : nonzeroOperand w = some c) : c = w ∧ w ≠ 0 := by
  unfold nonzeroOperand at h
  split at h
  · rename_i hw; cases h; exact ⟨rfl, hw⟩
  · cases h

end Sys2Proof
end

