-- ==== Sys2Proof/Laws/Engine.lean ====
section
/-! SUPPORT. The engine: which row is selected, and what a fire can do. -/

namespace Sys2Proof.Machine

variable {ρ q σ : Type} [DecidableEq q]

/-- The selected row is one of the table, of the current state, with its guard true. -/
theorem Fsm.select_spec {m : Fsm ρ q σ} {x : σ} {r : ρ} (h : m.select x = some r) :
    r ∈ m.rows ∧ m.src r = m.current x ∧ m.guard r x = true := by
  have hp := List.find?_some h
  simp only [Bool.and_eq_true, decide_eq_true_eq] at hp
  exact ⟨List.mem_of_find?_eq_some h, hp.1, hp.2⟩

theorem Fsm.fire_of_select {m : Fsm ρ q σ} {x : σ} {r : ρ} (h : m.select x = some r) :
    m.fire x = m.take r x := by rw [Fsm.fire, h]

/-- A fire takes the selected row, and does nothing where none is selected. -/
theorem Fsm.fire_cases (m : Fsm ρ q σ) (x : σ) :
    (∃ r, m.select x = some r ∧ m.fire x = m.take r x) ∨ (m.select x = none ∧ m.fire x = x) := by
  unfold Fsm.fire
  cases h : m.select x with
  | none => exact .inr ⟨rfl, rfl⟩
  | some r => exact .inl ⟨r, rfl, rfl⟩

/-- A row by itself is taken, and then it does what a fire does; or nothing changes. -/
theorem Fsm.tryRow_cases [DecidableEq ρ] (m : Fsm ρ q σ) (r : ρ) (x : σ) :
    (m.select x = some r ∧ m.tryRow r x = m.take r x ∧ m.fire x = m.tryRow r x) ∨
    (m.select x ≠ some r ∧ m.tryRow r x = x) := by
  by_cases h : m.select x = some r
  · exact .inl ⟨h, if_pos h, by simp [Fsm.fire, Fsm.tryRow, h]⟩
  · exact .inr ⟨h, if_neg h⟩

end Sys2Proof.Machine
end

