-- ==== Sys2Proof/Laws/State.lean ====
section
/-! SUPPORT. One lemma for each field of State and each named update, true by definition: no later proof
unfolds an update of the state. -/

namespace Sys2Proof.Machine

/-! ### `startTimer` -/

@[simp] theorem startTimer_cfg (s : State) : (startTimer s).cfg = s.cfg := rfl
@[simp] theorem startTimer_rxState (s : State) : (startTimer s).rxState = s.rxState := rfl
@[simp] theorem startTimer_rxEnabled (s : State) : (startTimer s).rxEnabled = s.rxEnabled := rfl
@[simp] theorem startTimer_rxCode (s : State) : (startTimer s).rxCode = s.rxCode := rfl
@[simp] theorem startTimer_rxRep (s : State) : (startTimer s).rxRep = s.rxRep := rfl
@[simp] theorem startTimer_rxErr (s : State) : (startTimer s).rxErr = s.rxErr := rfl
@[simp] theorem startTimer_rxLastCount (s : State) : (startTimer s).rxLastCount = s.rxLastCount := rfl
@[simp] theorem startTimer_rxLastTime (s : State) : (startTimer s).rxLastTime = s.rxLastTime := rfl
@[simp] theorem startTimer_txState (s : State) : (startTimer s).txState = s.txState := rfl
@[simp] theorem startTimer_txCode (s : State) : (startTimer s).txCode = s.txCode := rfl
@[simp] theorem startTimer_txProc (s : State) : (startTimer s).txProc = s.txProc := rfl
@[simp] theorem startTimer_txSeg (s : State) : (startTimer s).txSeg = s.txSeg := rfl
@[simp] theorem startTimer_txSegStart (s : State) : (startTimer s).txSegStart = s.txSegStart := rfl
@[simp] theorem startTimer_dec (s : State) : (startTimer s).dec = s.dec := rfl
@[simp] theorem startTimer_ebuf (s : State) : (startTimer s).ebuf = s.ebuf := rfl
@[simp] theorem startTimer_ecount (s : State) : (startTimer s).ecount = s.ecount := rfl
@[simp] theorem startTimer_capEn (s : State) : (startTimer s).capEn = s.capEn := rfl
@[simp] theorem startTimer_tick (s : State) : (startTimer s).tick = 0 := rfl
@[simp] theorem startTimer_tickRun (s : State) : (startTimer s).tickRun = true := rfl
@[simp] theorem startTimer_ms (s : State) : (startTimer s).ms = s.ms := rfl
@[simp] theorem startTimer_carrier (s : State) : (startTimer s).carrier = s.carrier := rfl
@[simp] theorem startTimer_res (s : State) : (startTimer s).res = s.res := rfl
@[simp] theorem startTimer_inbox (s : State) : (startTimer s).inbox = s.inbox := rfl
@[simp] theorem startTimer_envSteps (s : State) : (startTimer s).envSteps = s.envSteps := rfl
@[simp] theorem startTimer_ebufEra (s : State) : (startTimer s).ebufEra = s.ebufEra := rfl
@[simp] theorem startTimer_fresh (s : State) : (startTimer s).fresh = s.fresh := rfl

/-! ### `stopTimer` -/

@[simp] theorem stopTimer_cfg (s : State) : (stopTimer s).cfg = s.cfg := rfl
@[simp] theorem stopTimer_rxState (s : State) : (stopTimer s).rxState = s.rxState := rfl
@[simp] theorem stopTimer_rxEnabled (s : State) : (stopTimer s).rxEnabled = s.rxEnabled := rfl
@[simp] theorem stopTimer_rxCode (s : State) : (stopTimer s).rxCode = s.rxCode := rfl
@[simp] theorem stopTimer_rxRep (s : State) : (stopTimer s).rxRep = s.rxRep := rfl
@[simp] theorem stopTimer_rxErr (s : State) : (stopTimer s).rxErr = s.rxErr := rfl
@[simp] theorem stopTimer_rxLastCount (s : State) : (stopTimer s).rxLastCount = s.rxLastCount := rfl
@[simp] theorem stopTimer_rxLastTime (s : State) : (stopTimer s).rxLastTime = s.rxLastTime := rfl
@[simp] theorem stopTimer_txState (s : State) : (stopTimer s).txState = s.txState := rfl
@[simp] theorem stopTimer_txCode (s : State) : (stopTimer s).txCode = s.txCode := rfl
@[simp] theorem stopTimer_txProc (s : State) : (stopTimer s).txProc = s.txProc := rfl
@[simp] theorem stopTimer_txSeg (s : State) : (stopTimer s).txSeg = s.txSeg := rfl
@[simp] theorem stopTimer_txSegStart (s : State) : (stopTimer s).txSegStart = s.txSegStart := rfl
@[simp] theorem stopTimer_dec (s : State) : (stopTimer s).dec = s.dec := rfl
@[simp] theorem stopTimer_ebuf (s : State) : (stopTimer s).ebuf = s.ebuf := rfl
@[simp] theorem stopTimer_ecount (s : State) : (stopTimer s).ecount = s.ecount := rfl
@[simp] theorem stopTimer_capEn (s : State) : (stopTimer s).capEn = s.capEn := rfl
@[simp] theorem stopTimer_tick (s : State) : (stopTimer s).tick = s.tick := rfl
@[simp] theorem stopTimer_tickRun (s : State) : (stopTimer s).tickRun = false := rfl
@[simp] theorem stopTimer_ms (s : State) : (stopTimer s).ms = s.ms := rfl
@[simp] theorem stopTimer_carrier (s : State) : (stopTimer s).carrier = s.carrier := rfl
@[simp] theorem stopTimer_res (s : State) : (stopTimer s).res = s.res := rfl
@[simp] theorem stopTimer_inbox (s : State) : (stopTimer s).inbox = s.inbox := rfl
@[simp] theorem stopTimer_envSteps (s : State) : (stopTimer s).envSteps = s.envSteps := rfl
@[simp] theorem stopTimer_ebufEra (s : State) : (stopTimer s).ebufEra = s.ebufEra := rfl
@[simp] theorem stopTimer_fresh (s : State) : (stopTimer s).fresh = s.fresh := rfl

/-! ### `setCarrier` -/

@[simp] theorem setCarrier_cfg (b : Bool) (s : State) : (setCarrier b s).cfg = s.cfg := rfl
@[simp] theorem setCarrier_rxState (b : Bool) (s : State) : (setCarrier b s).rxState = s.rxState := rfl
@[simp] theorem setCarrier_rxEnabled (b : Bool) (s : State) : (setCarrier b s).rxEnabled = s.rxEnabled := rfl
@[simp] theorem setCarrier_rxCode (b : Bool) (s : State) : (setCarrier b s).rxCode = s.rxCode := rfl
@[simp] theorem setCarrier_rxRep (b : Bool) (s : State) : (setCarrier b s).rxRep = s.rxRep := rfl
@[simp] theorem setCarrier_rxErr (b : Bool) (s : State) : (setCarrier b s).rxErr = s.rxErr := rfl
@[simp] theorem setCarrier_rxLastCount (b : Bool) (s : State) : (setCarrier b s).rxLastCount = s.rxLastCount := rfl
@[simp] theorem setCarrier_rxLastTime (b : Bool) (s : State) : (setCarrier b s).rxLastTime = s.rxLastTime := rfl
@[simp] theorem setCarrier_txState (b : Bool) (s : State) : (setCarrier b s).txState = s.txState := rfl
@[simp] theorem setCarrier_txCode (b : Bool) (s : State) : (setCarrier b s).txCode = s.txCode := rfl
@[simp] theorem setCarrier_txProc (b : Bool) (s : State) : (setCarrier b s).txProc = s.txProc := rfl
@[simp] theorem setCarrier_txSeg (b : Bool) (s : State) : (setCarrier b s).txSeg = s.txSeg := rfl
@[simp] theorem setCarrier_txSegStart (b : Bool) (s : State) : (setCarrier b s).txSegStart = s.txSegStart := rfl
@[simp] theorem setCarrier_dec (b : Bool) (s : State) : (setCarrier b s).dec = s.dec := rfl
@[simp] theorem setCarrier_ebuf (b : Bool) (s : State) : (setCarrier b s).ebuf = s.ebuf := rfl
@[simp] theorem setCarrier_ecount (b : Bool) (s : State) : (setCarrier b s).ecount = s.ecount := rfl
@[simp] theorem setCarrier_capEn (b : Bool) (s : State) : (setCarrier b s).capEn = s.capEn := rfl
@[simp] theorem setCarrier_tick (b : Bool) (s : State) : (setCarrier b s).tick = s.tick := rfl
@[simp] theorem setCarrier_tickRun (b : Bool) (s : State) : (setCarrier b s).tickRun = s.tickRun := rfl
@[simp] theorem setCarrier_ms (b : Bool) (s : State) : (setCarrier b s).ms = s.ms := rfl
@[simp] theorem setCarrier_carrier (b : Bool) (s : State) : (setCarrier b s).carrier = b := rfl
@[simp] theorem setCarrier_res (b : Bool) (s : State) : (setCarrier b s).res = s.res := rfl
@[simp] theorem setCarrier_inbox (b : Bool) (s : State) : (setCarrier b s).inbox = s.inbox := rfl
@[simp] theorem setCarrier_envSteps (b : Bool) (s : State) : (setCarrier b s).envSteps = s.envSteps := rfl
@[simp] theorem setCarrier_ebufEra (b : Bool) (s : State) : (setCarrier b s).ebufEra = s.ebufEra := rfl
@[simp] theorem setCarrier_fresh (b : Bool) (s : State) : (setCarrier b s).fresh = s.fresh := rfl

/-! ### `clearEdgeBuffer` -/

@[simp] theorem clearEdgeBuffer_cfg (s : State) : (clearEdgeBuffer s).cfg = s.cfg := rfl
@[simp] theorem clearEdgeBuffer_rxState (s : State) : (clearEdgeBuffer s).rxState = s.rxState := rfl
@[simp] theorem clearEdgeBuffer_rxEnabled (s : State) : (clearEdgeBuffer s).rxEnabled = s.rxEnabled := rfl
@[simp] theorem clearEdgeBuffer_rxCode (s : State) : (clearEdgeBuffer s).rxCode = s.rxCode := rfl
@[simp] theorem clearEdgeBuffer_rxRep (s : State) : (clearEdgeBuffer s).rxRep = s.rxRep := rfl
@[simp] theorem clearEdgeBuffer_rxErr (s : State) : (clearEdgeBuffer s).rxErr = s.rxErr := rfl
@[simp] theorem clearEdgeBuffer_rxLastCount (s : State) : (clearEdgeBuffer s).rxLastCount = s.rxLastCount := rfl
@[simp] theorem clearEdgeBuffer_rxLastTime (s : State) : (clearEdgeBuffer s).rxLastTime = s.rxLastTime := rfl
@[simp] theorem clearEdgeBuffer_txState (s : State) : (clearEdgeBuffer s).txState = s.txState := rfl
@[simp] theorem clearEdgeBuffer_txCode (s : State) : (clearEdgeBuffer s).txCode = s.txCode := rfl
@[simp] theorem clearEdgeBuffer_txProc (s : State) : (clearEdgeBuffer s).txProc = s.txProc := rfl
@[simp] theorem clearEdgeBuffer_txSeg (s : State) : (clearEdgeBuffer s).txSeg = s.txSeg := rfl
@[simp] theorem clearEdgeBuffer_txSegStart (s : State) : (clearEdgeBuffer s).txSegStart = s.txSegStart := rfl
@[simp] theorem clearEdgeBuffer_dec (s : State) : (clearEdgeBuffer s).dec = s.dec := rfl
@[simp] theorem clearEdgeBuffer_ebuf (s : State) : (clearEdgeBuffer s).ebuf = [] := rfl
@[simp] theorem clearEdgeBuffer_ecount (s : State) : (clearEdgeBuffer s).ecount = 0 := rfl
@[simp] theorem clearEdgeBuffer_capEn (s : State) : (clearEdgeBuffer s).capEn = s.capEn := rfl
@[simp] theorem clearEdgeBuffer_tick (s : State) : (clearEdgeBuffer s).tick = s.tick := rfl
@[simp] theorem clearEdgeBuffer_tickRun (s : State) : (clearEdgeBuffer s).tickRun = s.tickRun := rfl
@[simp] theorem clearEdgeBuffer_ms (s : State) : (clearEdgeBuffer s).ms = s.ms := rfl
@[simp] theorem clearEdgeBuffer_carrier (s : State) : (clearEdgeBuffer s).carrier = s.carrier := rfl
@[simp] theorem clearEdgeBuffer_res (s : State) : (clearEdgeBuffer s).res = s.res := rfl
@[simp] theorem clearEdgeBuffer_inbox (s : State) : (clearEdgeBuffer s).inbox = s.inbox := rfl
@[simp] theorem clearEdgeBuffer_envSteps (s : State) : (clearEdgeBuffer s).envSteps = s.envSteps := rfl
@[simp] theorem clearEdgeBuffer_ebufEra (s : State) : (clearEdgeBuffer s).ebufEra = s.ebufEra + 1 := rfl
@[simp] theorem clearEdgeBuffer_fresh (s : State) : (clearEdgeBuffer s).fresh = s.fresh := rfl

/-! ### `enableCapture` -/

@[simp] theorem enableCapture_cfg (b : Bool) (s : State) : (enableCapture b s).cfg = s.cfg := rfl
@[simp] theorem enableCapture_rxState (b : Bool) (s : State) : (enableCapture b s).rxState = s.rxState := rfl
@[simp] theorem enableCapture_rxEnabled (b : Bool) (s : State) : (enableCapture b s).rxEnabled = s.rxEnabled := rfl
@[simp] theorem enableCapture_rxCode (b : Bool) (s : State) : (enableCapture b s).rxCode = s.rxCode := rfl
@[simp] theorem enableCapture_rxRep (b : Bool) (s : State) : (enableCapture b s).rxRep = s.rxRep := rfl
@[simp] theorem enableCapture_rxErr (b : Bool) (s : State) : (enableCapture b s).rxErr = s.rxErr := rfl
@[simp] theorem enableCapture_rxLastCount (b : Bool) (s : State) : (enableCapture b s).rxLastCount = s.rxLastCount := rfl
@[simp] theorem enableCapture_rxLastTime (b : Bool) (s : State) : (enableCapture b s).rxLastTime = s.rxLastTime := rfl
@[simp] theorem enableCapture_txState (b : Bool) (s : State) : (enableCapture b s).txState = s.txState := rfl
@[simp] theorem enableCapture_txCode (b : Bool) (s : State) : (enableCapture b s).txCode = s.txCode := rfl
@[simp] theorem enableCapture_txProc (b : Bool) (s : State) : (enableCapture b s).txProc = s.txProc := rfl
@[simp] theorem enableCapture_txSeg (b : Bool) (s : State) : (enableCapture b s).txSeg = s.txSeg := rfl
@[simp] theorem enableCapture_txSegStart (b : Bool) (s : State) : (enableCapture b s).txSegStart = s.txSegStart := rfl
@[simp] theorem enableCapture_dec (b : Bool) (s : State) : (enableCapture b s).dec = s.dec := rfl
@[simp] theorem enableCapture_ebuf (b : Bool) (s : State) : (enableCapture b s).ebuf = s.ebuf := rfl
@[simp] theorem enableCapture_ecount (b : Bool) (s : State) : (enableCapture b s).ecount = s.ecount := rfl
@[simp] theorem enableCapture_capEn (b : Bool) (s : State) : (enableCapture b s).capEn = b := rfl
@[simp] theorem enableCapture_tick (b : Bool) (s : State) : (enableCapture b s).tick = s.tick := rfl
@[simp] theorem enableCapture_tickRun (b : Bool) (s : State) : (enableCapture b s).tickRun = s.tickRun := rfl
@[simp] theorem enableCapture_ms (b : Bool) (s : State) : (enableCapture b s).ms = s.ms := rfl
@[simp] theorem enableCapture_carrier (b : Bool) (s : State) : (enableCapture b s).carrier = s.carrier := rfl
@[simp] theorem enableCapture_res (b : Bool) (s : State) : (enableCapture b s).res = s.res := rfl
@[simp] theorem enableCapture_inbox (b : Bool) (s : State) : (enableCapture b s).inbox = s.inbox := rfl
@[simp] theorem enableCapture_envSteps (b : Bool) (s : State) : (enableCapture b s).envSteps = s.envSteps := rfl
@[simp] theorem enableCapture_ebufEra (b : Bool) (s : State) : (enableCapture b s).ebufEra = s.ebufEra := rfl
@[simp] theorem enableCapture_fresh (b : Bool) (s : State) : (enableCapture b s).fresh = s.fresh := rfl

/-! ### `setRes` -/

@[simp] theorem setRes_cfg (r : Res) (s : State) : (setRes r s).cfg = s.cfg := rfl
@[simp] theorem setRes_rxState (r : Res) (s : State) : (setRes r s).rxState = s.rxState := rfl
@[simp] theorem setRes_rxEnabled (r : Res) (s : State) : (setRes r s).rxEnabled = s.rxEnabled := rfl
@[simp] theorem setRes_rxCode (r : Res) (s : State) : (setRes r s).rxCode = s.rxCode := rfl
@[simp] theorem setRes_rxRep (r : Res) (s : State) : (setRes r s).rxRep = s.rxRep := rfl
@[simp] theorem setRes_rxErr (r : Res) (s : State) : (setRes r s).rxErr = s.rxErr := rfl
@[simp] theorem setRes_rxLastCount (r : Res) (s : State) : (setRes r s).rxLastCount = s.rxLastCount := rfl
@[simp] theorem setRes_rxLastTime (r : Res) (s : State) : (setRes r s).rxLastTime = s.rxLastTime := rfl
@[simp] theorem setRes_txState (r : Res) (s : State) : (setRes r s).txState = s.txState := rfl
@[simp] theorem setRes_txCode (r : Res) (s : State) : (setRes r s).txCode = s.txCode := rfl
@[simp] theorem setRes_txProc (r : Res) (s : State) : (setRes r s).txProc = s.txProc := rfl
@[simp] theorem setRes_txSeg (r : Res) (s : State) : (setRes r s).txSeg = s.txSeg := rfl
@[simp] theorem setRes_txSegStart (r : Res) (s : State) : (setRes r s).txSegStart = s.txSegStart := rfl
@[simp] theorem setRes_dec (r : Res) (s : State) : (setRes r s).dec = s.dec := rfl
@[simp] theorem setRes_ebuf (r : Res) (s : State) : (setRes r s).ebuf = s.ebuf := rfl
@[simp] theorem setRes_ecount (r : Res) (s : State) : (setRes r s).ecount = s.ecount := rfl
@[simp] theorem setRes_capEn (r : Res) (s : State) : (setRes r s).capEn = s.capEn := rfl
@[simp] theorem setRes_tick (r : Res) (s : State) : (setRes r s).tick = s.tick := rfl
@[simp] theorem setRes_tickRun (r : Res) (s : State) : (setRes r s).tickRun = s.tickRun := rfl
@[simp] theorem setRes_ms (r : Res) (s : State) : (setRes r s).ms = s.ms := rfl
@[simp] theorem setRes_carrier (r : Res) (s : State) : (setRes r s).carrier = s.carrier := rfl
@[simp] theorem setRes_res (r : Res) (s : State) : (setRes r s).res = r := rfl
@[simp] theorem setRes_inbox (r : Res) (s : State) : (setRes r s).inbox = s.inbox := rfl
@[simp] theorem setRes_envSteps (r : Res) (s : State) : (setRes r s).envSteps = s.envSteps := rfl
@[simp] theorem setRes_ebufEra (r : Res) (s : State) : (setRes r s).ebufEra = s.ebufEra := rfl
@[simp] theorem setRes_fresh (r : Res) (s : State) : (setRes r s).fresh = s.fresh := rfl

/-! ### `releaseFsm` -/

@[simp] theorem releaseFsm_cfg (m : FsmId) (s : State) : (releaseFsm m s).cfg = s.cfg := rfl
@[simp] theorem releaseFsm_rxState (m : FsmId) (s : State) : (releaseFsm m s).rxState = s.rxState := rfl
@[simp] theorem releaseFsm_rxEnabled (m : FsmId) (s : State) : (releaseFsm m s).rxEnabled = s.rxEnabled := rfl
@[simp] theorem releaseFsm_rxCode (m : FsmId) (s : State) : (releaseFsm m s).rxCode = s.rxCode := rfl
@[simp] theorem releaseFsm_rxRep (m : FsmId) (s : State) : (releaseFsm m s).rxRep = s.rxRep := rfl
@[simp] theorem releaseFsm_rxErr (m : FsmId) (s : State) : (releaseFsm m s).rxErr = s.rxErr := rfl
@[simp] theorem releaseFsm_rxLastCount (m : FsmId) (s : State) : (releaseFsm m s).rxLastCount = s.rxLastCount := rfl
@[simp] theorem releaseFsm_rxLastTime (m : FsmId) (s : State) : (releaseFsm m s).rxLastTime = s.rxLastTime := rfl
@[simp] theorem releaseFsm_txState (m : FsmId) (s : State) : (releaseFsm m s).txState = s.txState := rfl
@[simp] theorem releaseFsm_txCode (m : FsmId) (s : State) : (releaseFsm m s).txCode = s.txCode := rfl
@[simp] theorem releaseFsm_txProc (m : FsmId) (s : State) : (releaseFsm m s).txProc = s.txProc := rfl
@[simp] theorem releaseFsm_txSeg (m : FsmId) (s : State) : (releaseFsm m s).txSeg = s.txSeg := rfl
@[simp] theorem releaseFsm_txSegStart (m : FsmId) (s : State) : (releaseFsm m s).txSegStart = s.txSegStart := rfl
@[simp] theorem releaseFsm_dec (m : FsmId) (s : State) : (releaseFsm m s).dec = s.dec := rfl
@[simp] theorem releaseFsm_ebuf (m : FsmId) (s : State) : (releaseFsm m s).ebuf = s.ebuf := rfl
@[simp] theorem releaseFsm_ecount (m : FsmId) (s : State) : (releaseFsm m s).ecount = s.ecount := rfl
@[simp] theorem releaseFsm_capEn (m : FsmId) (s : State) : (releaseFsm m s).capEn = s.capEn := rfl
@[simp] theorem releaseFsm_tick (m : FsmId) (s : State) : (releaseFsm m s).tick = s.tick := rfl
@[simp] theorem releaseFsm_tickRun (m : FsmId) (s : State) : (releaseFsm m s).tickRun = s.tickRun := rfl
@[simp] theorem releaseFsm_ms (m : FsmId) (s : State) : (releaseFsm m s).ms = s.ms := rfl
@[simp] theorem releaseFsm_carrier (m : FsmId) (s : State) : (releaseFsm m s).carrier = s.carrier := rfl
@[simp] theorem releaseFsm_res (m : FsmId) (s : State) : (releaseFsm m s).res = s.res := rfl
@[simp] theorem releaseFsm_inbox (m : FsmId) (s : State) : (releaseFsm m s).inbox = s.inbox := rfl
@[simp] theorem releaseFsm_envSteps (m : FsmId) (s : State) : (releaseFsm m s).envSteps = s.envSteps := rfl
@[simp] theorem releaseFsm_ebufEra (m : FsmId) (s : State) : (releaseFsm m s).ebufEra = s.ebufEra := rfl
@[simp] theorem releaseFsm_fresh (m : FsmId) (s : State) : (releaseFsm m s).fresh = s.fresh := rfl

/-! ### `beginProc` -/

@[simp] theorem beginProc_cfg (p : TxProc) (s : State) : (beginProc p s).cfg = s.cfg := rfl
@[simp] theorem beginProc_rxState (p : TxProc) (s : State) : (beginProc p s).rxState = s.rxState := rfl
@[simp] theorem beginProc_rxEnabled (p : TxProc) (s : State) : (beginProc p s).rxEnabled = s.rxEnabled := rfl
@[simp] theorem beginProc_rxCode (p : TxProc) (s : State) : (beginProc p s).rxCode = s.rxCode := rfl
@[simp] theorem beginProc_rxRep (p : TxProc) (s : State) : (beginProc p s).rxRep = s.rxRep := rfl
@[simp] theorem beginProc_rxErr (p : TxProc) (s : State) : (beginProc p s).rxErr = s.rxErr := rfl
@[simp] theorem beginProc_rxLastCount (p : TxProc) (s : State) : (beginProc p s).rxLastCount = s.rxLastCount := rfl
@[simp] theorem beginProc_rxLastTime (p : TxProc) (s : State) : (beginProc p s).rxLastTime = s.rxLastTime := rfl
@[simp] theorem beginProc_txState (p : TxProc) (s : State) : (beginProc p s).txState = s.txState := rfl
@[simp] theorem beginProc_txCode (p : TxProc) (s : State) : (beginProc p s).txCode = s.txCode := rfl
@[simp] theorem beginProc_txProc (p : TxProc) (s : State) : (beginProc p s).txProc = p := rfl
@[simp] theorem beginProc_txSeg (p : TxProc) (s : State) : (beginProc p s).txSeg = 0 := rfl
@[simp] theorem beginProc_txSegStart (p : TxProc) (s : State) : (beginProc p s).txSegStart = s.tick := rfl
@[simp] theorem beginProc_dec (p : TxProc) (s : State) : (beginProc p s).dec = s.dec := rfl
@[simp] theorem beginProc_ebuf (p : TxProc) (s : State) : (beginProc p s).ebuf = s.ebuf := rfl
@[simp] theorem beginProc_ecount (p : TxProc) (s : State) : (beginProc p s).ecount = s.ecount := rfl
@[simp] theorem beginProc_capEn (p : TxProc) (s : State) : (beginProc p s).capEn = s.capEn := rfl
@[simp] theorem beginProc_tick (p : TxProc) (s : State) : (beginProc p s).tick = s.tick := rfl
@[simp] theorem beginProc_tickRun (p : TxProc) (s : State) : (beginProc p s).tickRun = s.tickRun := rfl
@[simp] theorem beginProc_ms (p : TxProc) (s : State) : (beginProc p s).ms = s.ms := rfl
@[simp] theorem beginProc_carrier (p : TxProc) (s : State) : (beginProc p s).carrier = true := rfl
@[simp] theorem beginProc_res (p : TxProc) (s : State) : (beginProc p s).res = s.res := rfl
@[simp] theorem beginProc_inbox (p : TxProc) (s : State) : (beginProc p s).inbox = s.inbox := rfl
@[simp] theorem beginProc_envSteps (p : TxProc) (s : State) : (beginProc p s).envSteps = s.envSteps := rfl
@[simp] theorem beginProc_ebufEra (p : TxProc) (s : State) : (beginProc p s).ebufEra = s.ebufEra := rfl
@[simp] theorem beginProc_fresh (p : TxProc) (s : State) : (beginProc p s).fresh = s.fresh := rfl

/-! ### `beginEncode` -/

@[simp] theorem beginEncode_cfg (p : TxProc) (s : State) : (beginEncode p s).cfg = s.cfg := rfl
@[simp] theorem beginEncode_rxState (p : TxProc) (s : State) : (beginEncode p s).rxState = s.rxState := rfl
@[simp] theorem beginEncode_rxEnabled (p : TxProc) (s : State) : (beginEncode p s).rxEnabled = s.rxEnabled := rfl
@[simp] theorem beginEncode_rxCode (p : TxProc) (s : State) : (beginEncode p s).rxCode = s.rxCode := rfl
@[simp] theorem beginEncode_rxRep (p : TxProc) (s : State) : (beginEncode p s).rxRep = s.rxRep := rfl
@[simp] theorem beginEncode_rxErr (p : TxProc) (s : State) : (beginEncode p s).rxErr = s.rxErr := rfl
@[simp] theorem beginEncode_rxLastCount (p : TxProc) (s : State) : (beginEncode p s).rxLastCount = s.rxLastCount := rfl
@[simp] theorem beginEncode_rxLastTime (p : TxProc) (s : State) : (beginEncode p s).rxLastTime = s.rxLastTime := rfl
@[simp] theorem beginEncode_txState (p : TxProc) (s : State) : (beginEncode p s).txState = s.txState := rfl
@[simp] theorem beginEncode_txCode (p : TxProc) (s : State) : (beginEncode p s).txCode = s.txCode := rfl
@[simp] theorem beginEncode_txProc (p : TxProc) (s : State) : (beginEncode p s).txProc = p := rfl
@[simp] theorem beginEncode_txSeg (p : TxProc) (s : State) : (beginEncode p s).txSeg = 0 := rfl
@[simp] theorem beginEncode_txSegStart (p : TxProc) (s : State) : (beginEncode p s).txSegStart = 0 := rfl
@[simp] theorem beginEncode_dec (p : TxProc) (s : State) : (beginEncode p s).dec = s.dec := rfl
@[simp] theorem beginEncode_ebuf (p : TxProc) (s : State) : (beginEncode p s).ebuf = s.ebuf := rfl
@[simp] theorem beginEncode_ecount (p : TxProc) (s : State) : (beginEncode p s).ecount = s.ecount := rfl
@[simp] theorem beginEncode_capEn (p : TxProc) (s : State) : (beginEncode p s).capEn = s.capEn := rfl
@[simp] theorem beginEncode_tick (p : TxProc) (s : State) : (beginEncode p s).tick = 0 := rfl
@[simp] theorem beginEncode_tickRun (p : TxProc) (s : State) : (beginEncode p s).tickRun = true := rfl
@[simp] theorem beginEncode_ms (p : TxProc) (s : State) : (beginEncode p s).ms = s.ms := rfl
@[simp] theorem beginEncode_carrier (p : TxProc) (s : State) : (beginEncode p s).carrier = true := rfl
@[simp] theorem beginEncode_res (p : TxProc) (s : State) : (beginEncode p s).res = s.res := rfl
@[simp] theorem beginEncode_inbox (p : TxProc) (s : State) : (beginEncode p s).inbox = s.inbox := rfl
@[simp] theorem beginEncode_envSteps (p : TxProc) (s : State) : (beginEncode p s).envSteps = s.envSteps := rfl
@[simp] theorem beginEncode_ebufEra (p : TxProc) (s : State) : (beginEncode p s).ebufEra = s.ebufEra := rfl
@[simp] theorem beginEncode_fresh (p : TxProc) (s : State) : (beginEncode p s).fresh = s.fresh := rfl

/-! ### `mstickEvent` -/

@[simp] theorem mstickEvent_cfg (s : State) : (mstickEvent s).cfg = s.cfg := rfl
@[simp] theorem mstickEvent_rxState (s : State) : (mstickEvent s).rxState = s.rxState := rfl
@[simp] theorem mstickEvent_rxEnabled (s : State) : (mstickEvent s).rxEnabled = s.rxEnabled := rfl
@[simp] theorem mstickEvent_rxCode (s : State) : (mstickEvent s).rxCode = s.rxCode := rfl
@[simp] theorem mstickEvent_rxRep (s : State) : (mstickEvent s).rxRep = s.rxRep := rfl
@[simp] theorem mstickEvent_rxErr (s : State) : (mstickEvent s).rxErr = s.rxErr := rfl
@[simp] theorem mstickEvent_rxLastCount (s : State) : (mstickEvent s).rxLastCount = s.rxLastCount := rfl
@[simp] theorem mstickEvent_rxLastTime (s : State) : (mstickEvent s).rxLastTime = s.rxLastTime := rfl
@[simp] theorem mstickEvent_txState (s : State) : (mstickEvent s).txState = s.txState := rfl
@[simp] theorem mstickEvent_txCode (s : State) : (mstickEvent s).txCode = s.txCode := rfl
@[simp] theorem mstickEvent_txProc (s : State) : (mstickEvent s).txProc = s.txProc := rfl
@[simp] theorem mstickEvent_txSeg (s : State) : (mstickEvent s).txSeg = s.txSeg := rfl
@[simp] theorem mstickEvent_txSegStart (s : State) : (mstickEvent s).txSegStart = s.txSegStart := rfl
@[simp] theorem mstickEvent_dec (s : State) : (mstickEvent s).dec = s.dec := rfl
@[simp] theorem mstickEvent_ebuf (s : State) : (mstickEvent s).ebuf = s.ebuf := rfl
@[simp] theorem mstickEvent_ecount (s : State) : (mstickEvent s).ecount = s.ecount := rfl
@[simp] theorem mstickEvent_capEn (s : State) : (mstickEvent s).capEn = s.capEn := rfl
@[simp] theorem mstickEvent_tick (s : State) : (mstickEvent s).tick = s.tick := rfl
@[simp] theorem mstickEvent_tickRun (s : State) : (mstickEvent s).tickRun = s.tickRun := rfl
@[simp] theorem mstickEvent_ms (s : State) : (mstickEvent s).ms = s.ms + 1 := rfl
@[simp] theorem mstickEvent_carrier (s : State) : (mstickEvent s).carrier = s.carrier := rfl
@[simp] theorem mstickEvent_res (s : State) : (mstickEvent s).res = s.res := rfl
@[simp] theorem mstickEvent_inbox (s : State) : (mstickEvent s).inbox = s.inbox := rfl
@[simp] theorem mstickEvent_envSteps (s : State) : (mstickEvent s).envSteps = s.envSteps := rfl
@[simp] theorem mstickEvent_ebufEra (s : State) : (mstickEvent s).ebufEra = s.ebufEra := rfl
@[simp] theorem mstickEvent_fresh (s : State) : (mstickEvent s).fresh = s.fresh := rfl

/-! ### `armReceiver` -/

@[simp] theorem armReceiver_cfg (s : State) : (armReceiver s).cfg = s.cfg := rfl
@[simp] theorem armReceiver_rxState (s : State) : (armReceiver s).rxState = s.rxState := rfl
@[simp] theorem armReceiver_rxEnabled (s : State) : (armReceiver s).rxEnabled = s.rxEnabled := rfl
@[simp] theorem armReceiver_rxCode (s : State) : (armReceiver s).rxCode = s.rxCode := rfl
@[simp] theorem armReceiver_rxRep (s : State) : (armReceiver s).rxRep = s.rxRep := rfl
@[simp] theorem armReceiver_rxErr (s : State) : (armReceiver s).rxErr = s.rxErr := rfl
@[simp] theorem armReceiver_rxLastCount (s : State) : (armReceiver s).rxLastCount = s.rxLastCount := rfl
@[simp] theorem armReceiver_rxLastTime (s : State) : (armReceiver s).rxLastTime = s.rxLastTime := rfl
@[simp] theorem armReceiver_txState (s : State) : (armReceiver s).txState = s.txState := rfl
@[simp] theorem armReceiver_txCode (s : State) : (armReceiver s).txCode = s.txCode := rfl
@[simp] theorem armReceiver_txProc (s : State) : (armReceiver s).txProc = s.txProc := rfl
@[simp] theorem armReceiver_txSeg (s : State) : (armReceiver s).txSeg = s.txSeg := rfl
@[simp] theorem armReceiver_txSegStart (s : State) : (armReceiver s).txSegStart = s.txSegStart := rfl
@[simp] theorem armReceiver_dec (s : State) : (armReceiver s).dec = s.dec := rfl
@[simp] theorem armReceiver_ebuf (s : State) : (armReceiver s).ebuf = [] := rfl
@[simp] theorem armReceiver_ecount (s : State) : (armReceiver s).ecount = 0 := rfl
@[simp] theorem armReceiver_capEn (s : State) : (armReceiver s).capEn = true := rfl
@[simp] theorem armReceiver_tick (s : State) : (armReceiver s).tick = 0 := rfl
@[simp] theorem armReceiver_tickRun (s : State) : (armReceiver s).tickRun = true := rfl
@[simp] theorem armReceiver_ms (s : State) : (armReceiver s).ms = s.ms := rfl
@[simp] theorem armReceiver_carrier (s : State) : (armReceiver s).carrier = s.carrier := rfl
@[simp] theorem armReceiver_res (s : State) : (armReceiver s).res = s.res := rfl
@[simp] theorem armReceiver_inbox (s : State) : (armReceiver s).inbox = s.inbox := rfl
@[simp] theorem armReceiver_envSteps (s : State) : (armReceiver s).envSteps = s.envSteps := rfl
@[simp] theorem armReceiver_ebufEra (s : State) : (armReceiver s).ebufEra = s.ebufEra + 1 := rfl
@[simp] theorem armReceiver_fresh (s : State) : (armReceiver s).fresh = s.fresh := rfl

/-! ### `disarmReceiver` -/

@[simp] theorem disarmReceiver_cfg (s : State) : (disarmReceiver s).cfg = s.cfg := rfl
@[simp] theorem disarmReceiver_rxState (s : State) : (disarmReceiver s).rxState = s.rxState := rfl
@[simp] theorem disarmReceiver_rxEnabled (s : State) : (disarmReceiver s).rxEnabled = s.rxEnabled := rfl
@[simp] theorem disarmReceiver_rxCode (s : State) : (disarmReceiver s).rxCode = s.rxCode := rfl
@[simp] theorem disarmReceiver_rxRep (s : State) : (disarmReceiver s).rxRep = s.rxRep := rfl
@[simp] theorem disarmReceiver_rxErr (s : State) : (disarmReceiver s).rxErr = s.rxErr := rfl
@[simp] theorem disarmReceiver_rxLastCount (s : State) : (disarmReceiver s).rxLastCount = s.rxLastCount := rfl
@[simp] theorem disarmReceiver_rxLastTime (s : State) : (disarmReceiver s).rxLastTime = s.rxLastTime := rfl
@[simp] theorem disarmReceiver_txState (s : State) : (disarmReceiver s).txState = s.txState := rfl
@[simp] theorem disarmReceiver_txCode (s : State) : (disarmReceiver s).txCode = s.txCode := rfl
@[simp] theorem disarmReceiver_txProc (s : State) : (disarmReceiver s).txProc = s.txProc := rfl
@[simp] theorem disarmReceiver_txSeg (s : State) : (disarmReceiver s).txSeg = s.txSeg := rfl
@[simp] theorem disarmReceiver_txSegStart (s : State) : (disarmReceiver s).txSegStart = s.txSegStart := rfl
@[simp] theorem disarmReceiver_dec (s : State) : (disarmReceiver s).dec = s.dec := rfl
@[simp] theorem disarmReceiver_ebuf (s : State) : (disarmReceiver s).ebuf = s.ebuf := rfl
@[simp] theorem disarmReceiver_ecount (s : State) : (disarmReceiver s).ecount = s.ecount := rfl
@[simp] theorem disarmReceiver_capEn (s : State) : (disarmReceiver s).capEn = false := rfl
@[simp] theorem disarmReceiver_tick (s : State) : (disarmReceiver s).tick = s.tick := rfl
@[simp] theorem disarmReceiver_tickRun (s : State) : (disarmReceiver s).tickRun = false := rfl
@[simp] theorem disarmReceiver_ms (s : State) : (disarmReceiver s).ms = s.ms := rfl
@[simp] theorem disarmReceiver_carrier (s : State) : (disarmReceiver s).carrier = s.carrier := rfl
@[simp] theorem disarmReceiver_res (s : State) : (disarmReceiver s).res = s.res := rfl
@[simp] theorem disarmReceiver_inbox (s : State) : (disarmReceiver s).inbox = s.inbox := rfl
@[simp] theorem disarmReceiver_envSteps (s : State) : (disarmReceiver s).envSteps = s.envSteps := rfl
@[simp] theorem disarmReceiver_ebufEra (s : State) : (disarmReceiver s).ebufEra = s.ebufEra := rfl
@[simp] theorem disarmReceiver_fresh (s : State) : (disarmReceiver s).fresh = s.fresh := rfl

/-! ### `noteEdges` -/

@[simp] theorem noteEdges_cfg (s : State) : (noteEdges s).cfg = s.cfg := rfl
@[simp] theorem noteEdges_rxState (s : State) : (noteEdges s).rxState = s.rxState := rfl
@[simp] theorem noteEdges_rxEnabled (s : State) : (noteEdges s).rxEnabled = s.rxEnabled := rfl
@[simp] theorem noteEdges_rxCode (s : State) : (noteEdges s).rxCode = s.rxCode := rfl
@[simp] theorem noteEdges_rxRep (s : State) : (noteEdges s).rxRep = s.rxRep := rfl
@[simp] theorem noteEdges_rxErr (s : State) : (noteEdges s).rxErr = s.rxErr := rfl
@[simp] theorem noteEdges_rxLastCount (s : State) : (noteEdges s).rxLastCount = BitVec.ofNat 32 s.ecount := rfl
@[simp] theorem noteEdges_rxLastTime (s : State) : (noteEdges s).rxLastTime = s.ms := rfl
@[simp] theorem noteEdges_txState (s : State) : (noteEdges s).txState = s.txState := rfl
@[simp] theorem noteEdges_txCode (s : State) : (noteEdges s).txCode = s.txCode := rfl
@[simp] theorem noteEdges_txProc (s : State) : (noteEdges s).txProc = s.txProc := rfl
@[simp] theorem noteEdges_txSeg (s : State) : (noteEdges s).txSeg = s.txSeg := rfl
@[simp] theorem noteEdges_txSegStart (s : State) : (noteEdges s).txSegStart = s.txSegStart := rfl
@[simp] theorem noteEdges_dec (s : State) : (noteEdges s).dec = s.dec := rfl
@[simp] theorem noteEdges_ebuf (s : State) : (noteEdges s).ebuf = s.ebuf := rfl
@[simp] theorem noteEdges_ecount (s : State) : (noteEdges s).ecount = s.ecount := rfl
@[simp] theorem noteEdges_capEn (s : State) : (noteEdges s).capEn = s.capEn := rfl
@[simp] theorem noteEdges_tick (s : State) : (noteEdges s).tick = s.tick := rfl
@[simp] theorem noteEdges_tickRun (s : State) : (noteEdges s).tickRun = s.tickRun := rfl
@[simp] theorem noteEdges_ms (s : State) : (noteEdges s).ms = s.ms := rfl
@[simp] theorem noteEdges_carrier (s : State) : (noteEdges s).carrier = s.carrier := rfl
@[simp] theorem noteEdges_res (s : State) : (noteEdges s).res = s.res := rfl
@[simp] theorem noteEdges_inbox (s : State) : (noteEdges s).inbox = s.inbox := rfl
@[simp] theorem noteEdges_envSteps (s : State) : (noteEdges s).envSteps = s.envSteps := rfl
@[simp] theorem noteEdges_ebufEra (s : State) : (noteEdges s).ebufEra = s.ebufEra := rfl
@[simp] theorem noteEdges_fresh (s : State) : (noteEdges s).fresh = s.fresh := rfl

/-! ### `abandonFrame` -/

@[simp] theorem abandonFrame_cfg (s : State) : (abandonFrame s).cfg = s.cfg := rfl
@[simp] theorem abandonFrame_rxState (s : State) : (abandonFrame s).rxState = s.rxState := rfl
@[simp] theorem abandonFrame_rxEnabled (s : State) : (abandonFrame s).rxEnabled = s.rxEnabled := rfl
@[simp] theorem abandonFrame_rxCode (s : State) : (abandonFrame s).rxCode = s.rxCode := rfl
@[simp] theorem abandonFrame_rxRep (s : State) : (abandonFrame s).rxRep = s.rxRep := rfl
@[simp] theorem abandonFrame_rxErr (s : State) : (abandonFrame s).rxErr = s.rxErr := rfl
@[simp] theorem abandonFrame_rxLastCount (s : State) : (abandonFrame s).rxLastCount = 0 := rfl
@[simp] theorem abandonFrame_rxLastTime (s : State) : (abandonFrame s).rxLastTime = s.rxLastTime := rfl
@[simp] theorem abandonFrame_txState (s : State) : (abandonFrame s).txState = s.txState := rfl
@[simp] theorem abandonFrame_txCode (s : State) : (abandonFrame s).txCode = s.txCode := rfl
@[simp] theorem abandonFrame_txProc (s : State) : (abandonFrame s).txProc = s.txProc := rfl
@[simp] theorem abandonFrame_txSeg (s : State) : (abandonFrame s).txSeg = s.txSeg := rfl
@[simp] theorem abandonFrame_txSegStart (s : State) : (abandonFrame s).txSegStart = s.txSegStart := rfl
@[simp] theorem abandonFrame_dec (s : State) : (abandonFrame s).dec = s.dec := rfl
@[simp] theorem abandonFrame_ebuf (s : State) : (abandonFrame s).ebuf = s.ebuf := rfl
@[simp] theorem abandonFrame_ecount (s : State) : (abandonFrame s).ecount = s.ecount := rfl
@[simp] theorem abandonFrame_capEn (s : State) : (abandonFrame s).capEn = false := rfl
@[simp] theorem abandonFrame_tick (s : State) : (abandonFrame s).tick = s.tick := rfl
@[simp] theorem abandonFrame_tickRun (s : State) : (abandonFrame s).tickRun = false := rfl
@[simp] theorem abandonFrame_ms (s : State) : (abandonFrame s).ms = s.ms := rfl
@[simp] theorem abandonFrame_carrier (s : State) : (abandonFrame s).carrier = s.carrier := rfl
@[simp] theorem abandonFrame_res (s : State) : (abandonFrame s).res = s.res := rfl
@[simp] theorem abandonFrame_inbox (s : State) : (abandonFrame s).inbox = s.inbox := rfl
@[simp] theorem abandonFrame_envSteps (s : State) : (abandonFrame s).envSteps = s.envSteps := rfl
@[simp] theorem abandonFrame_ebufEra (s : State) : (abandonFrame s).ebufEra = s.ebufEra := rfl
@[simp] theorem abandonFrame_fresh (s : State) : (abandonFrame s).fresh = s.fresh := rfl

/-! ### `storeFrame` -/

@[simp] theorem storeFrame_cfg (d : Dec) (s : State) : (storeFrame d s).cfg = s.cfg := rfl
@[simp] theorem storeFrame_rxState (d : Dec) (s : State) : (storeFrame d s).rxState = s.rxState := rfl
@[simp] theorem storeFrame_rxEnabled (d : Dec) (s : State) : (storeFrame d s).rxEnabled = s.rxEnabled := rfl
@[simp] theorem storeFrame_rxCode (d : Dec) (s : State) : (storeFrame d s).rxCode = d.code := rfl
@[simp] theorem storeFrame_rxRep (d : Dec) (s : State) : (storeFrame d s).rxRep = d.rep := rfl
@[simp] theorem storeFrame_rxErr (d : Dec) (s : State) : (storeFrame d s).rxErr = errFlag d.code d.rep := rfl
@[simp] theorem storeFrame_rxLastCount (d : Dec) (s : State) : (storeFrame d s).rxLastCount = s.rxLastCount := rfl
@[simp] theorem storeFrame_rxLastTime (d : Dec) (s : State) : (storeFrame d s).rxLastTime = s.rxLastTime := rfl
@[simp] theorem storeFrame_txState (d : Dec) (s : State) : (storeFrame d s).txState = s.txState := rfl
@[simp] theorem storeFrame_txCode (d : Dec) (s : State) : (storeFrame d s).txCode = s.txCode := rfl
@[simp] theorem storeFrame_txProc (d : Dec) (s : State) : (storeFrame d s).txProc = s.txProc := rfl
@[simp] theorem storeFrame_txSeg (d : Dec) (s : State) : (storeFrame d s).txSeg = s.txSeg := rfl
@[simp] theorem storeFrame_txSegStart (d : Dec) (s : State) : (storeFrame d s).txSegStart = s.txSegStart := rfl
@[simp] theorem storeFrame_dec (d : Dec) (s : State) : (storeFrame d s).dec = d := rfl
@[simp] theorem storeFrame_ebuf (d : Dec) (s : State) : (storeFrame d s).ebuf = s.ebuf := rfl
@[simp] theorem storeFrame_ecount (d : Dec) (s : State) : (storeFrame d s).ecount = s.ecount := rfl
@[simp] theorem storeFrame_capEn (d : Dec) (s : State) : (storeFrame d s).capEn = s.capEn := rfl
@[simp] theorem storeFrame_tick (d : Dec) (s : State) : (storeFrame d s).tick = s.tick := rfl
@[simp] theorem storeFrame_tickRun (d : Dec) (s : State) : (storeFrame d s).tickRun = s.tickRun := rfl
@[simp] theorem storeFrame_ms (d : Dec) (s : State) : (storeFrame d s).ms = s.ms := rfl
@[simp] theorem storeFrame_carrier (d : Dec) (s : State) : (storeFrame d s).carrier = s.carrier := rfl
@[simp] theorem storeFrame_res (d : Dec) (s : State) : (storeFrame d s).res = s.res := rfl
@[simp] theorem storeFrame_inbox (d : Dec) (s : State) : (storeFrame d s).inbox = s.inbox := rfl
@[simp] theorem storeFrame_envSteps (d : Dec) (s : State) : (storeFrame d s).envSteps = s.envSteps := rfl
@[simp] theorem storeFrame_ebufEra (d : Dec) (s : State) : (storeFrame d s).ebufEra = s.ebufEra := rfl
@[simp] theorem storeFrame_fresh (d : Dec) (s : State) : (storeFrame d s).fresh = s.fresh := rfl

/-! ### `receiveBurst` -/

@[simp] theorem receiveBurst_cfg (on off : Nat) (s : State) : (receiveBurst on off s).cfg = s.cfg := rfl
@[simp] theorem receiveBurst_rxState (on off : Nat) (s : State) : (receiveBurst on off s).rxState = s.rxState := rfl
@[simp] theorem receiveBurst_rxEnabled (on off : Nat) (s : State) : (receiveBurst on off s).rxEnabled = s.rxEnabled := rfl
@[simp] theorem receiveBurst_rxCode (on off : Nat) (s : State) : (receiveBurst on off s).rxCode = s.rxCode := rfl
@[simp] theorem receiveBurst_rxRep (on off : Nat) (s : State) : (receiveBurst on off s).rxRep = s.rxRep := rfl
@[simp] theorem receiveBurst_rxErr (on off : Nat) (s : State) : (receiveBurst on off s).rxErr = s.rxErr := rfl
@[simp] theorem receiveBurst_rxLastCount (on off : Nat) (s : State) : (receiveBurst on off s).rxLastCount = s.rxLastCount := rfl
@[simp] theorem receiveBurst_rxLastTime (on off : Nat) (s : State) : (receiveBurst on off s).rxLastTime = s.rxLastTime := rfl
@[simp] theorem receiveBurst_txState (on off : Nat) (s : State) : (receiveBurst on off s).txState = s.txState := rfl
@[simp] theorem receiveBurst_txCode (on off : Nat) (s : State) : (receiveBurst on off s).txCode = s.txCode := rfl
@[simp] theorem receiveBurst_txProc (on off : Nat) (s : State) : (receiveBurst on off s).txProc = s.txProc := rfl
@[simp] theorem receiveBurst_txSeg (on off : Nat) (s : State) : (receiveBurst on off s).txSeg = s.txSeg := rfl
@[simp] theorem receiveBurst_txSegStart (on off : Nat) (s : State) : (receiveBurst on off s).txSegStart = s.txSegStart := rfl
@[simp] theorem receiveBurst_dec (on off : Nat) (s : State) : (receiveBurst on off s).dec = s.dec := rfl
@[simp] theorem receiveBurst_ebuf (on off : Nat) (s : State) : (receiveBurst on off s).ebuf = s.ebuf := rfl
@[simp] theorem receiveBurst_ecount (on off : Nat) (s : State) : (receiveBurst on off s).ecount = s.ecount := rfl
@[simp] theorem receiveBurst_capEn (on off : Nat) (s : State) : (receiveBurst on off s).capEn = s.capEn := rfl
@[simp] theorem receiveBurst_tick (on off : Nat) (s : State) : (receiveBurst on off s).tick = s.tick := rfl
@[simp] theorem receiveBurst_tickRun (on off : Nat) (s : State) : (receiveBurst on off s).tickRun = s.tickRun := rfl
@[simp] theorem receiveBurst_ms (on off : Nat) (s : State) : (receiveBurst on off s).ms = s.ms := rfl
@[simp] theorem receiveBurst_carrier (on off : Nat) (s : State) : (receiveBurst on off s).carrier = s.carrier := rfl
@[simp] theorem receiveBurst_res (on off : Nat) (s : State) : (receiveBurst on off s).res = s.res := rfl
@[simp] theorem receiveBurst_inbox (on off : Nat) (s : State) : (receiveBurst on off s).inbox = intervalCmds on ++ intervalCmds off ++ s.inbox := rfl
@[simp] theorem receiveBurst_envSteps (on off : Nat) (s : State) : (receiveBurst on off s).envSteps = s.envSteps := rfl
@[simp] theorem receiveBurst_ebufEra (on off : Nat) (s : State) : (receiveBurst on off s).ebufEra = s.ebufEra := rfl
@[simp] theorem receiveBurst_fresh (on off : Nat) (s : State) : (receiveBurst on off s).fresh = s.fresh := rfl

/-! ### `present` -/

@[simp] theorem present_cfg (sl : Slot) (s : State) : (present sl s).cfg = s.cfg := rfl
@[simp] theorem present_rxState (sl : Slot) (s : State) : (present sl s).rxState = s.rxState := rfl
@[simp] theorem present_rxEnabled (sl : Slot) (s : State) : (present sl s).rxEnabled = s.rxEnabled := rfl
@[simp] theorem present_rxCode (sl : Slot) (s : State) : (present sl s).rxCode = s.rxCode := rfl
@[simp] theorem present_rxRep (sl : Slot) (s : State) : (present sl s).rxRep = s.rxRep := rfl
@[simp] theorem present_rxErr (sl : Slot) (s : State) : (present sl s).rxErr = s.rxErr := rfl
@[simp] theorem present_rxLastCount (sl : Slot) (s : State) : (present sl s).rxLastCount = s.rxLastCount := rfl
@[simp] theorem present_rxLastTime (sl : Slot) (s : State) : (present sl s).rxLastTime = s.rxLastTime := rfl
@[simp] theorem present_txState (sl : Slot) (s : State) : (present sl s).txState = s.txState := rfl
@[simp] theorem present_txCode (sl : Slot) (s : State) : (present sl s).txCode = s.txCode := rfl
@[simp] theorem present_txProc (sl : Slot) (s : State) : (present sl s).txProc = s.txProc := rfl
@[simp] theorem present_txSeg (sl : Slot) (s : State) : (present sl s).txSeg = s.txSeg := rfl
@[simp] theorem present_txSegStart (sl : Slot) (s : State) : (present sl s).txSegStart = s.txSegStart := rfl
@[simp] theorem present_dec (sl : Slot) (s : State) : (present sl s).dec = s.dec := rfl
@[simp] theorem present_ebuf (sl : Slot) (s : State) : (present sl s).ebuf = s.ebuf := rfl
@[simp] theorem present_ecount (sl : Slot) (s : State) : (present sl s).ecount = s.ecount := rfl
@[simp] theorem present_capEn (sl : Slot) (s : State) : (present sl s).capEn = s.capEn := rfl
@[simp] theorem present_tick (sl : Slot) (s : State) : (present sl s).tick = s.tick := rfl
@[simp] theorem present_tickRun (sl : Slot) (s : State) : (present sl s).tickRun = s.tickRun := rfl
@[simp] theorem present_ms (sl : Slot) (s : State) : (present sl s).ms = s.ms := rfl
@[simp] theorem present_carrier (sl : Slot) (s : State) : (present sl s).carrier = s.carrier := rfl
@[simp] theorem present_res (sl : Slot) (s : State) : (present sl s).res = s.res := rfl
@[simp] theorem present_inbox (sl : Slot) (s : State) : (present sl s).inbox = .op sl :: s.inbox := rfl
@[simp] theorem present_envSteps (sl : Slot) (s : State) : (present sl s).envSteps = s.envSteps := rfl
@[simp] theorem present_ebufEra (sl : Slot) (s : State) : (present sl s).ebufEra = s.ebufEra := rfl
@[simp] theorem present_fresh (sl : Slot) (s : State) : (present sl s).fresh = s.fresh := rfl

end Sys2Proof.Machine
end

