-- ==== Sys2Proof/Laws/Events.lean ====
section
/-! SUPPORT. The fields that the conditional updates never write: the end of an emission, the sequencer's
check, `TICK` and `EDGE`. -/

namespace Sys2Proof.Machine

/-! ### `endProc`: the fields it never writes -/

@[simp] theorem endProc_cfg (s : State) : (endProc s).cfg = s.cfg := by
  unfold endProc; split <;> rfl
@[simp] theorem endProc_rxState (s : State) : (endProc s).rxState = s.rxState := by
  unfold endProc; split <;> rfl
@[simp] theorem endProc_rxEnabled (s : State) : (endProc s).rxEnabled = s.rxEnabled := by
  unfold endProc; split <;> rfl
@[simp] theorem endProc_rxCode (s : State) : (endProc s).rxCode = s.rxCode := by
  unfold endProc; split <;> rfl
@[simp] theorem endProc_rxRep (s : State) : (endProc s).rxRep = s.rxRep := by
  unfold endProc; split <;> rfl
@[simp] theorem endProc_rxErr (s : State) : (endProc s).rxErr = s.rxErr := by
  unfold endProc; split <;> rfl
@[simp] theorem endProc_rxLastCount (s : State) : (endProc s).rxLastCount = s.rxLastCount := by
  unfold endProc; split <;> rfl
@[simp] theorem endProc_rxLastTime (s : State) : (endProc s).rxLastTime = s.rxLastTime := by
  unfold endProc; split <;> rfl
@[simp] theorem endProc_txState (s : State) : (endProc s).txState = s.txState := rfl
@[simp] theorem endProc_dec (s : State) : (endProc s).dec = s.dec := by
  unfold endProc; split <;> rfl
@[simp] theorem endProc_ebuf (s : State) : (endProc s).ebuf = s.ebuf := by
  unfold endProc; split <;> rfl
@[simp] theorem endProc_ecount (s : State) : (endProc s).ecount = s.ecount := by
  unfold endProc; split <;> rfl
@[simp] theorem endProc_capEn (s : State) : (endProc s).capEn = s.capEn := by
  unfold endProc; split <;> rfl
@[simp] theorem endProc_tick (s : State) : (endProc s).tick = s.tick := by
  unfold endProc; split <;> rfl
@[simp] theorem endProc_tickRun (s : State) : (endProc s).tickRun = s.tickRun := by
  unfold endProc; split <;> rfl
@[simp] theorem endProc_ms (s : State) : (endProc s).ms = s.ms := by
  unfold endProc; split <;> rfl
@[simp] theorem endProc_res (s : State) : (endProc s).res = s.res := by
  unfold endProc; split <;> rfl
@[simp] theorem endProc_inbox (s : State) : (endProc s).inbox = s.inbox := by
  unfold endProc; split <;> rfl
@[simp] theorem endProc_envSteps (s : State) : (endProc s).envSteps = s.envSteps := by
  unfold endProc; split <;> rfl
@[simp] theorem endProc_ebufEra (s : State) : (endProc s).ebufEra = s.ebufEra := by
  unfold endProc; split <;> rfl
@[simp] theorem endProc_fresh (s : State) : (endProc s).fresh = s.fresh := by
  unfold endProc; split <;> rfl

@[simp] theorem endProc_txProc (s : State) : (endProc s).txProc = .idle := by
  unfold endProc; split <;> rfl
@[simp] theorem endProc_txSeg (s : State) : (endProc s).txSeg = 0 := by
  unfold endProc; split <;> rfl
@[simp] theorem endProc_txSegStart (s : State) : (endProc s).txSegStart = 0 := by
  unfold endProc; split <;> rfl
@[simp] theorem endProc_carrier (s : State) : (endProc s).carrier = false := by
  unfold endProc; split <;> rfl
theorem endProc_txCode_fire {s : State} {c : BitVec 32} (h : s.txProc = .fire c) : (endProc s).txCode = 0 := by
  unfold endProc; rw [h]
theorem endProc_txCode_other {s : State} (h : ∀ c, s.txProc ≠ .fire c) : (endProc s).txCode = s.txCode := by
  unfold endProc; split
  · rename_i c hc; exact absurd hc (h c)
  · rfl

/-! ### `sequencerCheck`: the fields it never writes -/

@[simp] theorem sequencerCheck_cfg (s : State) : (sequencerCheck s).cfg = s.cfg := by
  unfold sequencerCheck; (repeat' split) <;> first | rfl | exact endProc_cfg s
@[simp] theorem sequencerCheck_rxState (s : State) : (sequencerCheck s).rxState = s.rxState := by
  unfold sequencerCheck; (repeat' split) <;> first | rfl | exact endProc_rxState s
@[simp] theorem sequencerCheck_rxEnabled (s : State) : (sequencerCheck s).rxEnabled = s.rxEnabled := by
  unfold sequencerCheck; (repeat' split) <;> first | rfl | exact endProc_rxEnabled s
@[simp] theorem sequencerCheck_rxCode (s : State) : (sequencerCheck s).rxCode = s.rxCode := by
  unfold sequencerCheck; (repeat' split) <;> first | rfl | exact endProc_rxCode s
@[simp] theorem sequencerCheck_rxRep (s : State) : (sequencerCheck s).rxRep = s.rxRep := by
  unfold sequencerCheck; (repeat' split) <;> first | rfl | exact endProc_rxRep s
@[simp] theorem sequencerCheck_rxErr (s : State) : (sequencerCheck s).rxErr = s.rxErr := by
  unfold sequencerCheck; (repeat' split) <;> first | rfl | exact endProc_rxErr s
@[simp] theorem sequencerCheck_rxLastCount (s : State) : (sequencerCheck s).rxLastCount = s.rxLastCount := by
  unfold sequencerCheck; (repeat' split) <;> first | rfl | exact endProc_rxLastCount s
@[simp] theorem sequencerCheck_rxLastTime (s : State) : (sequencerCheck s).rxLastTime = s.rxLastTime := by
  unfold sequencerCheck; (repeat' split) <;> first | rfl | exact endProc_rxLastTime s
@[simp] theorem sequencerCheck_txState (s : State) : (sequencerCheck s).txState = s.txState := rfl
@[simp] theorem sequencerCheck_dec (s : State) : (sequencerCheck s).dec = s.dec := by
  unfold sequencerCheck; (repeat' split) <;> first | rfl | exact endProc_dec s
@[simp] theorem sequencerCheck_ebuf (s : State) : (sequencerCheck s).ebuf = s.ebuf := by
  unfold sequencerCheck; (repeat' split) <;> first | rfl | exact endProc_ebuf s
@[simp] theorem sequencerCheck_ecount (s : State) : (sequencerCheck s).ecount = s.ecount := by
  unfold sequencerCheck; (repeat' split) <;> first | rfl | exact endProc_ecount s
@[simp] theorem sequencerCheck_capEn (s : State) : (sequencerCheck s).capEn = s.capEn := by
  unfold sequencerCheck; (repeat' split) <;> first | rfl | exact endProc_capEn s
@[simp] theorem sequencerCheck_tick (s : State) : (sequencerCheck s).tick = s.tick := by
  unfold sequencerCheck; (repeat' split) <;> first | rfl | exact endProc_tick s
@[simp] theorem sequencerCheck_tickRun (s : State) : (sequencerCheck s).tickRun = s.tickRun := by
  unfold sequencerCheck; (repeat' split) <;> first | rfl | exact endProc_tickRun s
@[simp] theorem sequencerCheck_ms (s : State) : (sequencerCheck s).ms = s.ms := by
  unfold sequencerCheck; (repeat' split) <;> first | rfl | exact endProc_ms s
@[simp] theorem sequencerCheck_res (s : State) : (sequencerCheck s).res = s.res := by
  unfold sequencerCheck; (repeat' split) <;> first | rfl | exact endProc_res s
@[simp] theorem sequencerCheck_inbox (s : State) : (sequencerCheck s).inbox = s.inbox := by
  unfold sequencerCheck; (repeat' split) <;> first | rfl | exact endProc_inbox s
@[simp] theorem sequencerCheck_envSteps (s : State) : (sequencerCheck s).envSteps = s.envSteps := by
  unfold sequencerCheck; (repeat' split) <;> first | rfl | exact endProc_envSteps s
@[simp] theorem sequencerCheck_ebufEra (s : State) : (sequencerCheck s).ebufEra = s.ebufEra := by
  unfold sequencerCheck; (repeat' split) <;> first | rfl | exact endProc_ebufEra s
@[simp] theorem sequencerCheck_fresh (s : State) : (sequencerCheck s).fresh = s.fresh := by
  unfold sequencerCheck; (repeat' split) <;> first | rfl | exact endProc_fresh s

/-! ### `tickEvent`: the fields it never writes -/

@[simp] theorem tickEvent_cfg (s : State) : (tickEvent s).cfg = s.cfg := by
  unfold tickEvent; rw [sequencerCheck_cfg]; split <;> rfl
@[simp] theorem tickEvent_rxState (s : State) : (tickEvent s).rxState = s.rxState := by
  unfold tickEvent; rw [sequencerCheck_rxState]; split <;> rfl
@[simp] theorem tickEvent_rxEnabled (s : State) : (tickEvent s).rxEnabled = s.rxEnabled := by
  unfold tickEvent; rw [sequencerCheck_rxEnabled]; split <;> rfl
@[simp] theorem tickEvent_rxCode (s : State) : (tickEvent s).rxCode = s.rxCode := by
  unfold tickEvent; rw [sequencerCheck_rxCode]; split <;> rfl
@[simp] theorem tickEvent_rxRep (s : State) : (tickEvent s).rxRep = s.rxRep := by
  unfold tickEvent; rw [sequencerCheck_rxRep]; split <;> rfl
@[simp] theorem tickEvent_rxErr (s : State) : (tickEvent s).rxErr = s.rxErr := by
  unfold tickEvent; rw [sequencerCheck_rxErr]; split <;> rfl
@[simp] theorem tickEvent_rxLastCount (s : State) : (tickEvent s).rxLastCount = s.rxLastCount := by
  unfold tickEvent; rw [sequencerCheck_rxLastCount]; split <;> rfl
@[simp] theorem tickEvent_rxLastTime (s : State) : (tickEvent s).rxLastTime = s.rxLastTime := by
  unfold tickEvent; rw [sequencerCheck_rxLastTime]; split <;> rfl
@[simp] theorem tickEvent_txState (s : State) : (tickEvent s).txState = s.txState := rfl
@[simp] theorem tickEvent_dec (s : State) : (tickEvent s).dec = s.dec := by
  unfold tickEvent; rw [sequencerCheck_dec]; split <;> rfl
@[simp] theorem tickEvent_ebuf (s : State) : (tickEvent s).ebuf = s.ebuf := by
  unfold tickEvent; rw [sequencerCheck_ebuf]; split <;> rfl
@[simp] theorem tickEvent_ecount (s : State) : (tickEvent s).ecount = s.ecount := by
  unfold tickEvent; rw [sequencerCheck_ecount]; split <;> rfl
@[simp] theorem tickEvent_capEn (s : State) : (tickEvent s).capEn = s.capEn := by
  unfold tickEvent; rw [sequencerCheck_capEn]; split <;> rfl
@[simp] theorem tickEvent_tickRun (s : State) : (tickEvent s).tickRun = s.tickRun := by
  unfold tickEvent; rw [sequencerCheck_tickRun]; split <;> rfl
@[simp] theorem tickEvent_ms (s : State) : (tickEvent s).ms = s.ms := by
  unfold tickEvent; rw [sequencerCheck_ms]; split <;> rfl
@[simp] theorem tickEvent_res (s : State) : (tickEvent s).res = s.res := by
  unfold tickEvent; rw [sequencerCheck_res]; split <;> rfl
@[simp] theorem tickEvent_inbox (s : State) : (tickEvent s).inbox = s.inbox := by
  unfold tickEvent; rw [sequencerCheck_inbox]; split <;> rfl
@[simp] theorem tickEvent_envSteps (s : State) : (tickEvent s).envSteps = s.envSteps := by
  unfold tickEvent; rw [sequencerCheck_envSteps]; split <;> rfl
@[simp] theorem tickEvent_ebufEra (s : State) : (tickEvent s).ebufEra = s.ebufEra := by
  unfold tickEvent; rw [sequencerCheck_ebufEra]; split <;> rfl
@[simp] theorem tickEvent_fresh (s : State) : (tickEvent s).fresh = s.fresh := by
  unfold tickEvent; rw [sequencerCheck_fresh]; split <;> rfl

@[simp] theorem tickEvent_tick (s : State) :
    (tickEvent s).tick = if s.tickRun = true then tickSucc s.cfg.tickW s.tick else s.tick := by
  unfold tickEvent; rw [sequencerCheck_tick]; split <;> rfl

/-! ### `edgeEvent`: the fields it never writes -/

@[simp] theorem edgeEvent_cfg (s : State) : (edgeEvent s).cfg = s.cfg := by
  unfold edgeEvent; split <;> rfl
@[simp] theorem edgeEvent_rxState (s : State) : (edgeEvent s).rxState = s.rxState := by
  unfold edgeEvent; split <;> rfl
@[simp] theorem edgeEvent_rxEnabled (s : State) : (edgeEvent s).rxEnabled = s.rxEnabled := by
  unfold edgeEvent; split <;> rfl
@[simp] theorem edgeEvent_rxCode (s : State) : (edgeEvent s).rxCode = s.rxCode := by
  unfold edgeEvent; split <;> rfl
@[simp] theorem edgeEvent_rxRep (s : State) : (edgeEvent s).rxRep = s.rxRep := by
  unfold edgeEvent; split <;> rfl
@[simp] theorem edgeEvent_rxErr (s : State) : (edgeEvent s).rxErr = s.rxErr := by
  unfold edgeEvent; split <;> rfl
@[simp] theorem edgeEvent_rxLastCount (s : State) : (edgeEvent s).rxLastCount = s.rxLastCount := by
  unfold edgeEvent; split <;> rfl
@[simp] theorem edgeEvent_rxLastTime (s : State) : (edgeEvent s).rxLastTime = s.rxLastTime := by
  unfold edgeEvent; split <;> rfl
@[simp] theorem edgeEvent_txState (s : State) : (edgeEvent s).txState = s.txState := rfl
@[simp] theorem edgeEvent_txCode (s : State) : (edgeEvent s).txCode = s.txCode := by
  unfold edgeEvent; split <;> rfl
@[simp] theorem edgeEvent_txProc (s : State) : (edgeEvent s).txProc = s.txProc := by
  unfold edgeEvent; split <;> rfl
@[simp] theorem edgeEvent_txSeg (s : State) : (edgeEvent s).txSeg = s.txSeg := by
  unfold edgeEvent; split <;> rfl
@[simp] theorem edgeEvent_txSegStart (s : State) : (edgeEvent s).txSegStart = s.txSegStart := by
  unfold edgeEvent; split <;> rfl
@[simp] theorem edgeEvent_dec (s : State) : (edgeEvent s).dec = s.dec := by
  unfold edgeEvent; split <;> rfl
@[simp] theorem edgeEvent_capEn (s : State) : (edgeEvent s).capEn = s.capEn := by
  unfold edgeEvent; split <;> rfl
@[simp] theorem edgeEvent_tick (s : State) : (edgeEvent s).tick = s.tick := by
  unfold edgeEvent; split <;> rfl
@[simp] theorem edgeEvent_tickRun (s : State) : (edgeEvent s).tickRun = s.tickRun := by
  unfold edgeEvent; split <;> rfl
@[simp] theorem edgeEvent_ms (s : State) : (edgeEvent s).ms = s.ms := by
  unfold edgeEvent; split <;> rfl
@[simp] theorem edgeEvent_carrier (s : State) : (edgeEvent s).carrier = s.carrier := by
  unfold edgeEvent; split <;> rfl
@[simp] theorem edgeEvent_res (s : State) : (edgeEvent s).res = s.res := by
  unfold edgeEvent; split <;> rfl
@[simp] theorem edgeEvent_inbox (s : State) : (edgeEvent s).inbox = s.inbox := by
  unfold edgeEvent; split <;> rfl
@[simp] theorem edgeEvent_envSteps (s : State) : (edgeEvent s).envSteps = s.envSteps := by
  unfold edgeEvent; split <;> rfl
@[simp] theorem edgeEvent_ebufEra (s : State) : (edgeEvent s).ebufEra = s.ebufEra := by
  unfold edgeEvent; split <;> rfl
@[simp] theorem edgeEvent_fresh (s : State) : (edgeEvent s).fresh = s.fresh := by
  unfold edgeEvent; split <;> rfl

end Sys2Proof.Machine
end

