-- ==== Sys2Proof/Laws/Memory.lean ====
section
/-! SUPPORT. The edge buffer: reading after writing, and the canonical form. -/

namespace Sys2Proof.Machine

@[simp] theorem Memory.read_nil (i : Nat) : Memory.read [] i = none := rfl

theorem Memory.read_cons (j : Nat) (v : BitVec 32) (m : Memory) (i : Nat) :
    Memory.read ((j, v) :: m) i = if i = j then some v else Memory.read m i := rfl

/-- Reading after writing: the entry written reads as the value, every other entry as before. -/
theorem Memory.read_write (m : Memory) (i : Nat) (v : BitVec 32) (k : Nat) :
    Memory.read (Memory.write m i v) k = if k = i then some v else Memory.read m k := by
  induction m with
  | nil => simp [Memory.write, Memory.read_cons]
  | cons p m ih =>
    obtain ⟨j, u⟩ := p
    by_cases h1 : i < j
    · simp [Memory.write, Memory.read_cons, h1]
    · by_cases h2 : i = j
      · subst h2
        by_cases h3 : k = i <;> simp [Memory.write, Memory.read_cons, h3]
      · rw [Memory.write, if_neg h1, if_neg h2, Memory.read_cons, Memory.read_cons, ih]
        by_cases h3 : k = j
        · rw [if_pos h3, if_pos h3, if_neg (by omega)]
        · rw [if_neg h3, if_neg h3]

/-- The canonical form from `lo` on allows a lower start. -/
theorem Memory.wfFrom_mono {lo lo' : Nat} (h : lo' ≤ lo) {m : Memory} (hm : Memory.wfFrom lo m = true) :
    Memory.wfFrom lo' m = true := by
  cases m with
  | nil => rfl
  | cons p m =>
    simp only [Memory.wfFrom, Bool.and_eq_true, decide_eq_true_eq] at hm ⊢
    exact ⟨⟨h.trans hm.1.1, hm.1.2⟩, hm.2⟩

theorem Memory.wfFrom_write {lo i : Nat} (hlo : lo ≤ i) (hi : i < edgeCap) (v : BitVec 32) {m : Memory}
    (hm : Memory.wfFrom lo m = true) : Memory.wfFrom lo (Memory.write m i v) = true := by
  induction m generalizing lo with
  | nil => simp [Memory.write, Memory.wfFrom, hlo, hi]
  | cons p m ih =>
    obtain ⟨j, u⟩ := p
    simp only [Memory.wfFrom, Bool.and_eq_true, decide_eq_true_eq] at hm
    obtain ⟨⟨h1, h2⟩, h3⟩ := hm
    by_cases h4 : i < j
    · simp only [Memory.write, h4, if_true, Memory.wfFrom, Bool.and_eq_true, decide_eq_true_eq]
      exact ⟨⟨hlo, hi⟩, ⟨h4, h2⟩, h3⟩
    · by_cases h5 : i = j
      · subst h5
        simp only [Memory.write, h4, if_true, if_false, Memory.wfFrom, Bool.and_eq_true, decide_eq_true_eq]
        exact ⟨⟨hlo, hi⟩, h3⟩
      · simp only [Memory.write, h4, h5, if_false, Memory.wfFrom, Bool.and_eq_true, decide_eq_true_eq]
        exact ⟨⟨h1, h2⟩, ih (by omega) h3⟩

/-- Writing an entry that exists keeps the canonical form. -/
theorem Memory.wf_write {m : Memory} {i : Nat} (hi : i < edgeCap) (v : BitVec 32) (hm : Memory.wf m = true) :
    Memory.wf (Memory.write m i v) = true := Memory.wfFrom_write (Nat.zero_le i) hi v hm

/-- An entry that the canonical form lists is one of `EDGE_CAP`. -/
theorem Memory.read_lt_of_wfFrom {lo : Nat} {m : Memory} (hm : Memory.wfFrom lo m = true) {i : Nat}
    {v : BitVec 32} (h : Memory.read m i = some v) : lo ≤ i ∧ i < edgeCap := by
  induction m generalizing lo with
  | nil => simp at h
  | cons p m ih =>
    obtain ⟨j, u⟩ := p
    simp only [Memory.wfFrom, Bool.and_eq_true, decide_eq_true_eq] at hm
    obtain ⟨⟨h1, h2⟩, h3⟩ := hm
    rw [Memory.read_cons] at h
    split at h
    · omega
    · have := ih h3 h
      omega

/-- Equal contents are equal data: two buffers in the canonical form that read alike are one list. -/
theorem Memory.ext_of_wfFrom {lo : Nat} {m m' : Memory} (hm : Memory.wfFrom lo m = true)
    (hm' : Memory.wfFrom lo m' = true) (h : ∀ i, Memory.read m i = Memory.read m' i) : m = m' := by
  induction m generalizing lo m' with
  | nil =>
    cases m' with
    | nil => rfl
    | cons p m' =>
      have := h p.1
      rw [show p = (p.1, p.2) from rfl, Memory.read_cons] at this
      simp at this
  | cons p m ih =>
    obtain ⟨j, u⟩ := p
    cases m' with
    | nil => simpa [Memory.read_cons] using h j
    | cons p' m' =>
      obtain ⟨j', u'⟩ := p'
      simp only [Memory.wfFrom, Bool.and_eq_true, decide_eq_true_eq] at hm hm'
      have key : ∀ {a : Nat} {x : Memory}, Memory.wfFrom (a + 1) x = true → ∀ k, k ≤ a → Memory.read x k = none := by
        intro a x hx k hk
        cases hr : Memory.read x k with
        | none => rfl
        | some v => have := Memory.read_lt_of_wfFrom hx hr; omega
      have hj : j = j' := by
        rcases Nat.lt_trichotomy j j' with hlt | heq | hgt
        · have := h j
          have hk := key hm'.2 j (by omega)
          simp [Memory.read_cons, hk, Nat.ne_of_lt hlt] at this
        · exact heq
        · have := h j'
          have hk := key hm.2 j' (by omega)
          simp [Memory.read_cons, hk, Nat.ne_of_lt hgt] at this
      subst hj
      have hu : u = u' := by simpa [Memory.read_cons] using h j
      subst hu
      congr 1
      refine ih hm.2 hm'.2 (fun i => ?_)
      have := h i
      by_cases hi : i = j
      · subst hi
        rw [key hm.2 i le_rfl, key hm'.2 i le_rfl]
      · simpa [Memory.read_cons, hi] using this

/-- The buffer after reset has the canonical form. -/
theorem Memory.wf_reset : Memory.wf State.reset.ebuf = true := rfl

/-- The buffer after a clear has the canonical form. -/
theorem Memory.wf_clear (s : State) : Memory.wf (clearEdgeBuffer s).ebuf = true := rfl

end Sys2Proof.Machine
end

