-- ==== Sys2Proof/Laws/Ops.lean ====
section
/-! SUPPORT. What each shared operation can do, said once: the blocked host, the events, the sequencer, the
end of an emission, the RESET event. -/

namespace Sys2Proof.Machine

/-! ### The host's side -/

theorem hostSide_idle {s : State} (h : s.txProc = .idle) (o : Host.Outcome State Fault Refusal) :
    hostSide s o = o := if_pos h

theorem hostSide_blocked {s : State} (h : s.txProc ≠ .idle) (o : Host.Outcome State Fault Refusal) :
    hostSide s o = .refused .hostBlocked := if_neg h

/-- An operation of the host's side that answers a next state ran outside any emission. -/
theorem hostSide_next {s t : State} {o : Host.Outcome State Fault Refusal} (h : hostSide s o = .next t) :
    s.txProc = .idle ∧ o = .next t := by
  by_cases hs : s.txProc = .idle
  · exact ⟨hs, by rwa [hostSide_idle hs] at h⟩
  · rw [hostSide_blocked hs] at h; cases h

theorem hostSide_fault {s : State} {f : Fault} {o : Host.Outcome State Fault Refusal}
    (h : hostSide s o = .fault f) : s.txProc = .idle ∧ o = .fault f := by
  by_cases hs : s.txProc = .idle
  · exact ⟨hs, by rwa [hostSide_idle hs] at h⟩
  · rw [hostSide_blocked hs] at h; cases h

/-! ### Reading an edge -/

/-- What an entry reads as is a function of the buffer, its era, the width of the counter and the index. -/
theorem edgeAt_congr {s s' : State} (hm : s.ebuf = s'.ebuf) (he : s.ebufEra = s'.ebufEra)
    (hw : s.cfg.tickW = s'.cfg.tickW) (i : Nat) : edgeAt s i = edgeAt s' i := by
  simp only [edgeAt, hm, he, hw]

theorem edgeAt_listed {s : State} {i : Nat} {v : BitVec 32} (h : Memory.read s.ebuf i = some v) :
    edgeAt s i = v := by simp only [edgeAt, h]

theorem edgeAt_unlisted {s : State} {i : Nat} (h : Memory.read s.ebuf i = none) :
    edgeAt s i = trunc s.cfg.tickW (Config.unspecifiedEntry s.ebufEra i) := by simp only [edgeAt, h]

/-! ### `EDGE` -/

/-- Everything an `EDGE` can do. -/
theorem edgeEvent_cases (s : State) :
    (s.capEn = true ∧ s.ecount < edgeCap ∧
      edgeEvent s = { s with ebuf := Memory.write s.ebuf s.ecount s.tick, ecount := s.ecount + 1 }) ∨
    ((s.capEn = false ∨ edgeCap ≤ s.ecount) ∧ edgeEvent s = s) := by
  by_cases h : s.capEn = true ∧ s.ecount < edgeCap
  · exact .inl ⟨h.1, h.2, if_pos h⟩
  · refine .inr ⟨?_, if_neg h⟩
    by_cases hc : s.capEn = true
    · exact .inr (Nat.le_of_not_lt fun hl => h ⟨hc, hl⟩)
    · exact .inl (Bool.eq_false_iff.mpr hc)

/-- An `EDGE` keeps the buffer's canonical form. -/
theorem edgeEvent_wf {s : State} (h : Memory.wf s.ebuf = true) : Memory.wf (edgeEvent s).ebuf = true := by
  rcases edgeEvent_cases s with ⟨-, hl, he⟩ | ⟨-, he⟩ <;> rw [he]
  · exact Memory.wf_write hl _ h
  · exact h

/-- `RESET` leaves a buffer in the canonical form. -/
theorem resetEvent_wf (s : State) : Memory.wf (resetEvent s).ebuf = true := rfl

/-! ### The sequencer -/

@[simp] theorem procSegments_idle (cfg : Params) : procSegments cfg .idle = [] := rfl

/-- Everything a sequencer check can do: nothing; the next segment; the end of the procedure. -/
theorem sequencerCheck_cases (s : State) :
    sequencerCheck s = s ∨
    (∃ l n l' n', (procSegments s.cfg s.txProc)[s.txSeg]? = some (l, n) ∧
      n ≤ (tickSub s.cfg.tickW s.tick s.txSegStart).toNat ∧
      (procSegments s.cfg s.txProc)[s.txSeg + 1]? = some (l', n') ∧
      sequencerCheck s = { s with txSeg := s.txSeg + 1, txSegStart := s.tick, carrier := l' }) ∨
    (∃ l n, (procSegments s.cfg s.txProc)[s.txSeg]? = some (l, n) ∧
      n ≤ (tickSub s.cfg.tickW s.tick s.txSegStart).toNat ∧
      (procSegments s.cfg s.txProc)[s.txSeg + 1]? = none ∧ sequencerCheck s = endProc s) := by
  unfold sequencerCheck
  split
  · exact .inl rfl
  · rename_i l n h1
    split
    · rename_i h2
      split
      · rename_i h3
        exact .inr (.inr ⟨l, n, h1, h2, h3, rfl⟩)
      · rename_i l' n' h3
        exact .inr (.inl ⟨l, n, l', n', h1, h2, h3, rfl⟩)
    · exact .inl rfl

/-- Outside an emission a check does nothing. -/
theorem sequencerCheck_idle {s : State} (h : s.txProc = .idle) : sequencerCheck s = s := by
  simp [sequencerCheck, h]

/-- The counter's part of a `TICK`. -/
theorem tickEvent_eq (s : State) :
    tickEvent s = sequencerCheck { s with
      tick := if s.tickRun = true then tickSucc s.cfg.tickW s.tick else s.tick } := by
  unfold tickEvent
  split <;> rfl

/-- Outside an emission a `TICK` only counts. -/
theorem tickEvent_idle {s : State} (h : s.txProc = .idle) :
    tickEvent s = { s with tick := if s.tickRun = true then tickSucc s.cfg.tickW s.tick else s.tick } := by
  rw [tickEvent_eq, sequencerCheck_idle (by exact h)]

/-! ### `RESET` -/

/-- What `RESET` keeps: the parameters and the inputs still waiting. -/
theorem resetEvent_keeps (s : State) : (resetEvent s).cfg = s.cfg ∧ (resetEvent s).inbox = s.inbox := ⟨rfl, rfl⟩

/-- The counter after a `RESET` is free, within `TICK_W` bits. -/
theorem resetEvent_tick_lt (s : State) : (resetEvent s).tick.toNat < tickModulus (resetEvent s).cfg.tickW :=
  trunc_lt _ _

end Sys2Proof.Machine
end

