-- ==== Sys2Proof/Laws/Decoder.lean ====
section
/-! SUPPORT. The decoder: the row selected in each state, what one fire does, the drive loop, and the
consistency of the working registers. -/

namespace Sys2Proof.Machine

variable (cfg : Params) (rd : Nat → Tick) (d : Dec)

/-! ### Which row fires -/

theorem decSelect_idle (h : d.state = .idle) :
    (decFsm cfg rd).select d = some (if inW (measured cfg rd d) cfg.wLeadOn = true then .t1 else .t2) := by
  by_cases h1 : inW (measured cfg rd d) cfg.wLeadOn = true <;> simp [Fsm.select, decFsm, h, h1]

theorem decSelect_init (h : d.state = .init) :
    (decFsm cfg rd).select d = some (if inW (measured cfg rd d) cfg.wLeadOff = true then .t3
      else if inW (measured cfg rd d) cfg.wRepOff = true then .t4 else .t5) := by
  by_cases h1 : inW (measured cfg rd d) cfg.wLeadOff = true <;>
    by_cases h2 : inW (measured cfg rd d) cfg.wRepOff = true <;> simp [Fsm.select, decFsm, h, h1, h2]

theorem decSelect_silence (h : d.state = .symbolSilence) :
    (decFsm cfg rd).select d = some (if d.bits = 0 then .t6
      else if inW (measured cfg rd d) cfg.wBitOn = true then .t7 else .t8) := by
  by_cases h1 : d.bits = 0 <;>
    by_cases h2 : inW (measured cfg rd d) cfg.wBitOn = true <;> simp [Fsm.select, decFsm, h, h1, h2]

theorem decSelect_pulse (h : d.state = .symbolPulse) :
    (decFsm cfg rd).select d = some (if inW (measured cfg rd d) cfg.wBit0Off = true then .t9
      else if inW (measured cfg rd d) cfg.wBit1Off = true then .t10 else .t11) := by
  by_cases h1 : inW (measured cfg rd d) cfg.wBit0Off = true <;>
    by_cases h2 : inW (measured cfg rd d) cfg.wBit1Off = true <;> simp [Fsm.select, decFsm, h, h1, h2]

/-- Some row of the decoder always fires: the last row of each state has the guard `true`. -/
theorem decSelect_isSome : ((decFsm cfg rd).select d).isSome = true := by
  cases h : d.state
  · rw [decSelect_idle cfg rd d h]; rfl
  · rw [decSelect_init cfg rd d h]; rfl
  · rw [decSelect_silence cfg rd d h]; rfl
  · rw [decSelect_pulse cfg rd d h]; rfl

/-! ### What one fire does -/

theorem decFire_idle (h : d.state = .idle) :
    (decFsm cfg rd).fire d = if inW (measured cfg rd d) cfg.wLeadOn = true
      then { d with code := 0, pos := d.pos + 1, rem := d.rem - 1, state := .init }
      else { d with pos := d.pos + 2, rem := d.rem - 2, state := .idle } := by
  rw [Fsm.fire_of_select (decSelect_idle cfg rd d h)]; split <;> rfl

theorem decFire_init (h : d.state = .init) :
    (decFsm cfg rd).fire d = if inW (measured cfg rd d) cfg.wLeadOff = true
      then { d with bits := 32, rep := false, pos := d.pos + 1, rem := d.rem - 1, state := .symbolSilence }
      else if inW (measured cfg rd d) cfg.wRepOff = true
      then { d with bits := 0, rep := true, pos := d.pos + 1, rem := d.rem - 1, state := .symbolSilence }
      else { d with pos := d.pos + 1, rem := d.rem - 1, state := .idle } := by
  rw [Fsm.fire_of_select (decSelect_init cfg rd d h)]; split
  · rfl
  · split <;> rfl

theorem decFire_silence (h : d.state = .symbolSilence) :
    (decFsm cfg rd).fire d = if d.bits = 0
      then { d with rem := 0, state := .idle }
      else if inW (measured cfg rd d) cfg.wBitOn = true
      then { d with pos := d.pos + 1, rem := d.rem - 1, state := .symbolPulse }
      else { d with code := if cfg.abortClearsCode = true then 0 else d.code,
                    pos := d.pos + 1, rem := d.rem - 1, state := .idle } := by
  rw [Fsm.fire_of_select (decSelect_silence cfg rd d h)]; split
  · rfl
  · split
    · rfl
    · simp only [Fsm.take, decFsm, abortCode, advance]; split <;> rfl

theorem decFire_pulse (h : d.state = .symbolPulse) :
    (decFsm cfg rd).fire d = if inW (measured cfg rd d) cfg.wBit0Off = true
      then { d with code := appendBit d.code false, bits := d.bits - 1, pos := d.pos + 1, rem := d.rem - 1,
                    state := .symbolSilence }
      else if inW (measured cfg rd d) cfg.wBit1Off = true
      then { d with code := appendBit d.code true, bits := d.bits - 1, pos := d.pos + 1, rem := d.rem - 1,
                    state := .symbolSilence }
      else { d with code := if cfg.abortClearsCode = true then 0 else d.code,
                    pos := d.pos + 1, rem := d.rem - 1, state := .idle } := by
  rw [Fsm.fire_of_select (decSelect_pulse cfg rd d h)]; split
  · rfl
  · split
    · rfl
    · simp only [Fsm.take, decFsm, abortCode, advance]; split <;> rfl

/-- A fire with an edge left consumes at least one, and never moves the end of the unread edges outwards. -/
theorem decFire_edges (h2 : 2 ≤ d.rem) :
    ((decFsm cfg rd).fire d).rem < d.rem ∧
      ((decFsm cfg rd).fire d).pos + ((decFsm cfg rd).fire d).rem ≤ d.pos + d.rem := by
  cases h : d.state
  · rw [decFire_idle cfg rd d h]; split <;> constructor <;> simp only <;> omega
  · rw [decFire_init cfg rd d h]; (repeat' split) <;> constructor <;> simp only <;> omega
  · rw [decFire_silence cfg rd d h]; (repeat' split) <;> constructor <;> simp only <;> omega
  · rw [decFire_pulse cfg rd d h]; (repeat' split) <;> constructor <;> simp only <;> omega

/-- A fire keeps the working registers in range and consistent. -/
theorem decFire_ok (h2 : 2 ≤ d.rem) (hd : DecOk d) : DecOk ((decFsm cfg rd).fire d) := by
  have he := (decFire_edges cfg rd d h2).2.trans hd.edges_le
  obtain ⟨_, hb, hi, hr, hp, hrb⟩ := hd
  have hn : d.state = .symbolPulse → d.rep = false := fun h => by
    have h1 := hp h
    cases hc : d.rep with
    | false => rfl
    | true => have := hrb hc (.inr h); omega
  refine ⟨he, ?_, ?_, ?_, ?_, ?_⟩ <;>
    (cases h : d.state
     · rw [decFire_idle cfg rd d h]; (repeat' split) <;> simp_all
     · rw [decFire_init cfg rd d h]; (repeat' split) <;> simp_all
     · rw [decFire_silence cfg rd d h]; (repeat' split) <;> simp_all <;> try omega
     · rw [decFire_pulse cfg rd d h]; (repeat' split) <;> simp_all <;> try omega)

/-- A fire depends on the buffer only through the two entries it measures. -/
theorem decFire_congr {rd' : Nat → Tick} (h0 : rd d.pos = rd' d.pos) (h1 : rd (d.pos + 1) = rd' (d.pos + 1)) :
    (decFsm cfg rd).fire d = (decFsm cfg rd').fire d := by
  have hm : measured cfg rd d = measured cfg rd' d := by simp only [measured, h0, h1]
  cases h : d.state
  · rw [decFire_idle cfg rd d h, decFire_idle cfg rd' d h, hm]
  · rw [decFire_init cfg rd d h, decFire_init cfg rd' d h, hm]
  · rw [decFire_silence cfg rd d h, decFire_silence cfg rd' d h, hm]
  · rw [decFire_pulse cfg rd d h, decFire_pulse cfg rd' d h, hm]

/-! ### The drive loop -/

variable {d}

theorem decDrive_done (fuel : Nat) (h : d.rem < 2) : decDrive cfg rd fuel d = d := by
  cases fuel <;> simp [decDrive, h]

theorem decDrive_step (fuel : Nat) (h : 2 ≤ d.rem) :
    decDrive cfg rd (fuel + 1) d = decDrive cfg rd fuel ((decFsm cfg rd).fire d) := by
  rw [decDrive, if_neg (by omega)]

/-- Fuel for one fire fewer than the remaining edges is enough, and more does not matter. -/
theorem decDrive_fuel : ∀ (fuel fuel' : Nat) {d : Dec}, d.rem ≤ fuel + 1 → d.rem ≤ fuel' + 1 →
    decDrive cfg rd fuel d = decDrive cfg rd fuel' d
  | fuel, fuel', d, h, h' => by
    by_cases h2 : d.rem < 2
    · rw [decDrive_done cfg rd fuel h2, decDrive_done cfg rd fuel' h2]
    · obtain ⟨f, rfl⟩ : ∃ f, fuel = f + 1 := ⟨fuel - 1, by omega⟩
      obtain ⟨f', rfl⟩ : ∃ f', fuel' = f' + 1 := ⟨fuel' - 1, by omega⟩
      have := (decFire_edges cfg rd d (by omega)).1
      rw [decDrive_step cfg rd f (by omega), decDrive_step cfg rd f' (by omega)]
      exact decDrive_fuel f f' (by omega) (by omega)

/-- One turn of a run: with enough fuel, a fire and the rest of the run. -/
theorem decDrive_fire {fuel : Nat} (hf : d.rem ≤ fuel + 1) (h2 : 2 ≤ d.rem) :
    decDrive cfg rd fuel d = decDrive cfg rd fuel ((decFsm cfg rd).fire d) := by
  obtain ⟨f, rfl⟩ : ∃ f, fuel = f + 1 := ⟨fuel - 1, by omega⟩
  have := (decFire_edges cfg rd d h2).1
  rw [decDrive_step cfg rd f h2]
  exact decDrive_fuel cfg rd _ _ (by omega) (by omega)

/-- A property that every fire keeps holds at the end of a run. -/
theorem decDrive_induct (P : Dec → Prop) (step : ∀ d, 2 ≤ d.rem → P d → P ((decFsm cfg rd).fire d)) :
    ∀ (fuel : Nat) {d : Dec}, P d → P (decDrive cfg rd fuel d)
  | 0, _, h => h
  | fuel + 1, d, h => by
    by_cases h2 : d.rem < 2
    · rwa [decDrive_done cfg rd _ h2]
    · rw [decDrive_step cfg rd _ (by omega)]
      exact decDrive_induct P step fuel (step d (by omega) h)

/-- With enough fuel a run ends with fewer than two edges remaining. -/
theorem decDrive_rem : ∀ (fuel : Nat) {d : Dec}, d.rem ≤ fuel + 1 → (decDrive cfg rd fuel d).rem < 2
  | 0, d, h => by simp only [decDrive]; omega
  | fuel + 1, d, h => by
    by_cases h2 : d.rem < 2
    · rwa [decDrive_done cfg rd _ h2]
    · have := (decFire_edges cfg rd d (by omega)).1
      rw [decDrive_step cfg rd _ (by omega)]
      exact decDrive_rem fuel (by omega)

theorem decStart_ok {n : Nat} (hn : n ≤ edgeCap) : DecOk (decStart n) := by
  refine ⟨by simpa [decStart] using hn, ?_, ?_, ?_, ?_, ?_⟩ <;> simp [decStart]

/-- The working registers at the end of a run are consistent. -/
theorem decRun_ok {n : Nat} (hn : n ≤ edgeCap) : DecOk (decRun cfg rd n) :=
  decDrive_induct cfg rd DecOk (fun d h hd => decFire_ok cfg rd d h hd) n (decStart_ok hn)

/-- A run never looks outside the edges it was given. -/
theorem decDrive_congr {rd' : Nat → Tick} {n : Nat} (h : ∀ i, i < n → rd i = rd' i) :
    ∀ (fuel : Nat) {d : Dec}, d.pos + d.rem ≤ n → decDrive cfg rd fuel d = decDrive cfg rd' fuel d
  | 0, _, _ => rfl
  | fuel + 1, d, hd => by
    by_cases h2 : d.rem < 2
    · rw [decDrive_done cfg rd _ h2, decDrive_done cfg rd' _ h2]
    · have he := decFire_edges cfg rd d (by omega)
      have hc := decFire_congr cfg rd d (rd' := rd') (h _ (by omega)) (h _ (by omega))
      rw [decDrive_step cfg rd _ (by omega), decDrive_step cfg rd' _ (by omega), ← hc]
      exact decDrive_congr h fuel (by omega)

theorem decRun_congr {rd' : Nat → Tick} {n : Nat} (h : ∀ i, i < n → rd i = rd' i) :
    decRun cfg rd n = decRun cfg rd' n := decDrive_congr cfg rd h n (by simp [decStart])

/-! ### A row, or a fire, by itself -/

/-- Inside the buffer no decoder row is out of range. -/
theorem decOutOfRange_of_lt (h : d.pos + 1 < edgeCap) : decOutOfRange d = false := by
  simp [decOutOfRange, Nat.not_le.mpr h]

/-- Consistent registers with two edges remaining stay inside the buffer. -/
theorem decOutOfRange_of_ok (hd : DecOk d) (h2 : 2 ≤ d.rem) : decOutOfRange d = false :=
  decOutOfRange_of_lt (by have := hd.edges_le; omega)

/-- Everything a decoder row by itself can do. -/
theorem decTransition_next {r : DecRow} {s t : State} (h : decTransition r s = .next t) :
    s.txProc = .idle ∧ (t = s ∨ (2 ≤ s.dec.rem ∧ (decFsm s.cfg (edgeAt s)).select s.dec = some r ∧
      t = { s with dec := (decFsm s.cfg (edgeAt s)).fire s.dec })) := by
  obtain ⟨hp, h⟩ := hostSide_next h
  refine ⟨hp, ?_⟩
  split at h
  · cases h; exact .inl rfl
  · rename_i hc
    split at h
    · cases h
    · cases h
      rcases (decFsm s.cfg (edgeAt s)).tryRow_cases r s.dec with ⟨h1, -, h3⟩ | ⟨-, h2⟩
      · exact .inr ⟨by omega, h1, by rw [h3]⟩
      · exact .inl (by rw [h2])

/-- Everything one fire of the decoder by itself can do. -/
theorem fireDecoder_next {s t : State} (h : fireDecoder s = .next t) :
    s.txProc = .idle ∧ (t = s ∨ (2 ≤ s.dec.rem ∧ t = { s with dec := (decFsm s.cfg (edgeAt s)).fire s.dec })) := by
  obtain ⟨hp, h⟩ := hostSide_next h
  refine ⟨hp, ?_⟩
  split at h
  · cases h; exact .inl rfl
  · split at h
    · cases h
    · cases h; exact .inr ⟨by omega, rfl⟩

/-- What `DEC.RUN` does when it answers a next state. -/
theorem execDecRun_next {n : BitVec 32} {s t : State} (h : execDecRun n s = .next t) :
    s.txProc = .idle ∧ n.toNat ≤ edgeCap ∧
      t = { s with dec := decRun s.cfg (edgeAt s) n.toNat, res := decFrame (decRun s.cfg (edgeAt s) n.toNat) } := by
  obtain ⟨hp, h⟩ := hostSide_next h
  split at h
  · rename_i hn
    cases h; exact ⟨hp, hn, rfl⟩
  · cases h

end Sys2Proof.Machine
end

