-- ==== Sys2Proof/Laws/Framer.lean ====
section
/-! SUPPORT. The framer: the row selected in each state and what one fire does. -/

namespace Sys2Proof.Machine

/-! ### Which row fires -/

theorem framerSelect_off {s : State} (h : s.rxState = .off) :
    framerFsm.select s = if s.rxEnabled = true then some .f1 else none := by
  cases h1 : s.rxEnabled <;> simp [Fsm.select, framerFsm, h, h1]

theorem framerSelect_idle {s : State} (h : s.rxState = .idle) :
    framerFsm.select s = if s.rxEnabled = false then some .f2
      else if newEdges s = true then some .f3 else none := by
  cases h1 : s.rxEnabled <;> cases h2 : newEdges s <;> simp [Fsm.select, framerFsm, h, h1, h2]

theorem framerSelect_wait {s : State} (h : s.rxState = .wait) :
    framerFsm.select s = if s.rxEnabled = false then some .f4
      else if newEdges s = true then some .f5
      else if timedOut s = true then some .f6 else none := by
  cases h1 : s.rxEnabled <;> cases h2 : newEdges s <;> cases h3 : timedOut s <;>
    simp [Fsm.select, framerFsm, h, h1, h2, h3]

/-- The six ways a framer row is selected, with what it then does. -/
theorem framerFire_cases (s : State) :
    (framerFsm.select s = none ∧ framerFsm.fire s = s) ∨
    (framerFsm.select s = some .f1 ∧ s.rxState = .off ∧ s.rxEnabled = true ∧
      framerFsm.fire s = { armReceiver s with rxState := .idle }) ∨
    (framerFsm.select s = some .f2 ∧ s.rxState = .idle ∧ s.rxEnabled = false ∧
      framerFsm.fire s = { disarmReceiver s with rxState := .off }) ∨
    (framerFsm.select s = some .f3 ∧ s.rxState = .idle ∧ s.rxEnabled = true ∧ newEdges s = true ∧
      framerFsm.fire s = { noteEdges s with rxState := .wait }) ∨
    (framerFsm.select s = some .f4 ∧ s.rxState = .wait ∧ s.rxEnabled = false ∧
      framerFsm.fire s = { abandonFrame s with rxState := .off }) ∨
    (framerFsm.select s = some .f5 ∧ s.rxState = .wait ∧ s.rxEnabled = true ∧ newEdges s = true ∧
      framerFsm.fire s = { noteEdges s with rxState := .wait }) ∨
    (framerFsm.select s = some .f6 ∧ s.rxState = .wait ∧ s.rxEnabled = true ∧ newEdges s = false ∧
      timedOut s = true ∧ framerFsm.fire s = { endFrame s with rxState := .idle }) := by
  have hf : ∀ r, framerFsm.select s = some r → framerFsm.fire s = framerFsm.take r s :=
    fun r => Fsm.fire_of_select
  have hn : framerFsm.select s = none → framerFsm.fire s = s := fun h => by rw [Fsm.fire, h]
  cases h : s.rxState
  · have hs := framerSelect_off h
    cases h1 : s.rxEnabled <;> simp only [h1, Bool.false_eq_true, if_true, if_false] at hs
    · exact .inl ⟨hs, hn hs⟩
    · exact .inr (.inl ⟨hs, rfl, rfl, hf _ hs⟩)
  · have hs := framerSelect_idle h
    cases h1 : s.rxEnabled <;> simp only [h1, if_true, Bool.true_eq_false, if_false] at hs
    · exact .inr (.inr (.inl ⟨hs, rfl, rfl, hf _ hs⟩))
    · cases h2 : newEdges s <;> simp only [h2, Bool.false_eq_true, if_true, if_false] at hs
      · exact .inl ⟨hs, hn hs⟩
      · exact .inr (.inr (.inr (.inl ⟨hs, rfl, rfl, rfl, hf _ hs⟩)))
  · have hs := framerSelect_wait h
    cases h1 : s.rxEnabled <;> simp only [h1, if_true, Bool.true_eq_false, if_false] at hs
    · exact .inr (.inr (.inr (.inr (.inl ⟨hs, rfl, rfl, hf _ hs⟩))))
    · cases h2 : newEdges s <;> simp only [h2, Bool.false_eq_true, if_true, if_false] at hs
      · cases h3 : timedOut s <;> simp only [h3, Bool.false_eq_true, if_true, if_false] at hs
        · exact .inl ⟨hs, hn hs⟩
        · exact .inr (.inr (.inr (.inr (.inr (.inr ⟨hs, rfl, rfl, rfl, rfl, hf _ hs⟩)))))
      · exact .inr (.inr (.inr (.inr (.inr (.inl ⟨hs, rfl, rfl, rfl, hf _ hs⟩)))))

/-- With the count in range no framer row is out of range. -/
theorem framerOutOfRange_of_le {s : State} (h : s.rxLastCount.toNat ≤ edgeCap) : framerOutOfRange s = false := by
  simp [framerOutOfRange, Nat.not_lt.mpr h]

/-- One fire of the framer, in a state whose count is in range. -/
theorem fireFramer_of_le {s : State} (hp : s.txProc = .idle) (h : s.rxLastCount.toNat ≤ edgeCap) :
    fireFramer s = .next (framerFsm.fire s) := by
  rw [fireFramer, hostSide_idle hp, framerOutOfRange_of_le h]; rfl

/-- Everything one fire of the framer can do when it answers a next state. -/
theorem fireFramer_next {s t : State} (h : fireFramer s = .next t) :
    s.txProc = .idle ∧ framerOutOfRange s = false ∧ t = framerFsm.fire s := by
  obtain ⟨hp, h⟩ := hostSide_next h
  split at h
  · cases h
  · rename_i ho
    cases h; exact ⟨hp, Bool.eq_false_iff.mpr ho, rfl⟩

/-- Everything a framer row by itself can do when it answers a next state. -/
theorem framerTransition_next {r : RxRow} {s t : State} (h : framerTransition r s = .next t) :
    s.txProc = .idle ∧ (t = s ∨ (framerFsm.select s = some r ∧ framerOutOfRange s = false ∧
      t = framerFsm.fire s)) := by
  obtain ⟨hp, h⟩ := hostSide_next h
  refine ⟨hp, ?_⟩
  split at h
  · cases h
  · rename_i ho
    cases h
    rcases framerFsm.tryRow_cases r s with ⟨h1, -, h3⟩ | ⟨-, h2⟩
    · refine .inr ⟨h1, ?_, h3.symm⟩
      by_cases h6 : r = .f6
      · exact Bool.eq_false_iff.mpr fun h => ho ⟨h6, h⟩
      · simp [framerOutOfRange, h1, h6]
    · exact .inl h2

/-- The fields of the state after F6. -/
theorem endFrame_eq (s : State) :
    endFrame s = { s with
      rxCode := (decRun s.cfg (edgeAt s) s.rxLastCount.toNat).code
      rxRep := (decRun s.cfg (edgeAt s) s.rxLastCount.toNat).rep
      rxErr := errFlag (decRun s.cfg (edgeAt s) s.rxLastCount.toNat).code
        (decRun s.cfg (edgeAt s) s.rxLastCount.toNat).rep
      dec := decRun s.cfg (edgeAt s) s.rxLastCount.toNat
      rxLastCount := 0, ecount := 0, ebuf := [], ebufEra := s.ebufEra + 1 } := rfl

/-- What no fire of the framer writes: the parameters, the enable, the millisecond clock, the transmit side,
the result port and the inputs. -/
theorem framerFire_frame (s : State) :
    (framerFsm.fire s).cfg = s.cfg ∧ (framerFsm.fire s).rxEnabled = s.rxEnabled ∧
      (framerFsm.fire s).ms = s.ms ∧ (framerFsm.fire s).txState = s.txState ∧
      (framerFsm.fire s).txCode = s.txCode ∧ (framerFsm.fire s).txProc = s.txProc ∧
      (framerFsm.fire s).txSeg = s.txSeg ∧ (framerFsm.fire s).txSegStart = s.txSegStart ∧
      (framerFsm.fire s).carrier = s.carrier ∧ (framerFsm.fire s).res = s.res ∧
      (framerFsm.fire s).inbox = s.inbox ∧ (framerFsm.fire s).envSteps = s.envSteps ∧
      (framerFsm.fire s).fresh = s.fresh := by
  rcases framerFire_cases s with ⟨-, h⟩ | ⟨-, -, -, h⟩ | ⟨-, -, -, h⟩ | ⟨-, -, -, -, h⟩ | ⟨-, -, -, h⟩ |
    ⟨-, -, -, -, h⟩ | ⟨-, -, -, -, -, h⟩ <;> rw [h] <;>
    exact ⟨rfl, rfl, rfl, rfl, rfl, rfl, rfl, rfl, rfl, rfl, rfl, rfl, rfl⟩

end Sys2Proof.Machine
end

