-- ==== Sys2Proof/Laws/PerInstr.lean ====
section
/-! SUPPORT. Statements about the syntax made for every instruction, one lemma per constructor. -/

namespace Sys2Proof.Laws

/-- The code of an instruction's slot has the bits of its class (R110, R113), and a host operation has no
operand words beside its 36 bits. -/
def EncodeFits.Statement (i : Instr) : Prop :=
  (encode i).code.toNat < 2 ^ (encode i).fmt.width ∧
    ((encode i).fmt = .hostop → (encode i).arg0 = 0 ∧ (encode i).arg1 = 0)

theorem EncodeFits.rxFire : EncodeFits.Statement .rxFire := ⟨BitVec.isLt _, fun _ => ⟨rfl, rfl⟩⟩
theorem EncodeFits.rxSeten (b : Bool) : EncodeFits.Statement (.rxSeten b) := ⟨BitVec.isLt _, fun _ => ⟨rfl, rfl⟩⟩
theorem EncodeFits.rxGetcode : EncodeFits.Statement .rxGetcode := ⟨BitVec.isLt _, fun _ => ⟨rfl, rfl⟩⟩
theorem EncodeFits.rxGetrep : EncodeFits.Statement .rxGetrep := ⟨BitVec.isLt _, fun _ => ⟨rfl, rfl⟩⟩
theorem EncodeFits.rxGeterr : EncodeFits.Statement .rxGeterr := ⟨BitVec.isLt _, fun _ => ⟨rfl, rfl⟩⟩
theorem EncodeFits.rxResetcode : EncodeFits.Statement .rxResetcode := ⟨BitVec.isLt _, fun _ => ⟨rfl, rfl⟩⟩
theorem EncodeFits.rxIsactive : EncodeFits.Statement .rxIsactive := ⟨BitVec.isLt _, fun _ => ⟨rfl, rfl⟩⟩
theorem EncodeFits.txFire : EncodeFits.Statement .txFire := ⟨BitVec.isLt _, fun _ => ⟨rfl, rfl⟩⟩
theorem EncodeFits.txSetcode (c : BitVec 32) : EncodeFits.Statement (.txSetcode c) := ⟨BitVec.isLt _, fun _ => ⟨rfl, rfl⟩⟩
theorem EncodeFits.txIsactive : EncodeFits.Statement .txIsactive := ⟨BitVec.isLt _, fun _ => ⟨rfl, rfl⟩⟩
theorem EncodeFits.t1 : EncodeFits.Statement .t1 := ⟨by decide, fun h => by cases h⟩
theorem EncodeFits.t2 : EncodeFits.Statement .t2 := ⟨by decide, fun h => by cases h⟩
theorem EncodeFits.t3 : EncodeFits.Statement .t3 := ⟨by decide, fun h => by cases h⟩
theorem EncodeFits.t4 : EncodeFits.Statement .t4 := ⟨by decide, fun h => by cases h⟩
theorem EncodeFits.t5 : EncodeFits.Statement .t5 := ⟨by decide, fun h => by cases h⟩
theorem EncodeFits.t6 : EncodeFits.Statement .t6 := ⟨by decide, fun h => by cases h⟩
theorem EncodeFits.t7 : EncodeFits.Statement .t7 := ⟨by decide, fun h => by cases h⟩
theorem EncodeFits.t8 : EncodeFits.Statement .t8 := ⟨by decide, fun h => by cases h⟩
theorem EncodeFits.t9 : EncodeFits.Statement .t9 := ⟨by decide, fun h => by cases h⟩
theorem EncodeFits.t10 : EncodeFits.Statement .t10 := ⟨by decide, fun h => by cases h⟩
theorem EncodeFits.t11 : EncodeFits.Statement .t11 := ⟨by decide, fun h => by cases h⟩
theorem EncodeFits.f1 : EncodeFits.Statement .f1 := ⟨by decide, fun h => by cases h⟩
theorem EncodeFits.f2 : EncodeFits.Statement .f2 := ⟨by decide, fun h => by cases h⟩
theorem EncodeFits.f3 : EncodeFits.Statement .f3 := ⟨by decide, fun h => by cases h⟩
theorem EncodeFits.f4 : EncodeFits.Statement .f4 := ⟨by decide, fun h => by cases h⟩
theorem EncodeFits.f5 : EncodeFits.Statement .f5 := ⟨by decide, fun h => by cases h⟩
theorem EncodeFits.f6 : EncodeFits.Statement .f6 := ⟨by decide, fun h => by cases h⟩
theorem EncodeFits.x1 : EncodeFits.Statement .x1 := ⟨by decide, fun h => by cases h⟩
theorem EncodeFits.prologue (side : WireSide) : EncodeFits.Statement (.prologue side) := ⟨by
  simp only [encode, Format.width]; decide, fun h => by cases h⟩
theorem EncodeFits.sym0 (side : WireSide) : EncodeFits.Statement (.sym0 side) := ⟨by
  simp only [encode, Format.width]; decide, fun h => by cases h⟩
theorem EncodeFits.sym1 (side : WireSide) : EncodeFits.Statement (.sym1 side) := ⟨by
  simp only [encode, Format.width]; decide, fun h => by cases h⟩
theorem EncodeFits.epilogue (side : WireSide) : EncodeFits.Statement (.epilogue side) := ⟨by
  simp only [encode, Format.width]; decide, fun h => by cases h⟩
theorem EncodeFits.repeatFrame : EncodeFits.Statement .repeatFrame := ⟨by decide, fun h => by cases h⟩
theorem EncodeFits.tick : EncodeFits.Statement .tick := ⟨by decide, fun h => by cases h⟩
theorem EncodeFits.mstick : EncodeFits.Statement .mstick := ⟨by decide, fun h => by cases h⟩
theorem EncodeFits.edge : EncodeFits.Statement .edge := ⟨by decide, fun h => by cases h⟩
theorem EncodeFits.nowMillis : EncodeFits.Statement .nowMillis := ⟨by decide, fun h => by cases h⟩
theorem EncodeFits.currentTick : EncodeFits.Statement .currentTick := ⟨by decide, fun h => by cases h⟩
theorem EncodeFits.startTimer : EncodeFits.Statement .startTimer := ⟨by decide, fun h => by cases h⟩
theorem EncodeFits.stopTimer : EncodeFits.Statement .stopTimer := ⟨by decide, fun h => by cases h⟩
theorem EncodeFits.setCarrier (on : Bool) : EncodeFits.Statement (.setCarrier on) := ⟨by
  simp only [encode, Format.width]; decide, fun h => by cases h⟩
theorem EncodeFits.getEdgeCount : EncodeFits.Statement .getEdgeCount := ⟨by decide, fun h => by cases h⟩
theorem EncodeFits.getEdgeBuffer : EncodeFits.Statement .getEdgeBuffer := ⟨by decide, fun h => by cases h⟩
theorem EncodeFits.clearEdgeBuffer : EncodeFits.Statement .clearEdgeBuffer := ⟨by decide, fun h => by cases h⟩
theorem EncodeFits.enableCapture (b : Bool) : EncodeFits.Statement (.enableCapture b) := ⟨by
  simp only [encode, Format.width]; decide, fun h => by cases h⟩
theorem EncodeFits.fsmInit (m : FsmId) (t : TableArg) : EncodeFits.Statement (.fsmInit m t) := ⟨by
  simp only [encode, Format.width]; decide, fun h => by cases h⟩
theorem EncodeFits.fsmFire (m : FsmId) : EncodeFits.Statement (.fsmFire m) := ⟨by
  simp only [encode, Format.width]; decide, fun h => by cases h⟩
theorem EncodeFits.fsmDestroy (m : FsmId) : EncodeFits.Statement (.fsmDestroy m) := ⟨by
  simp only [encode, Format.width]; decide, fun h => by cases h⟩
theorem EncodeFits.decRun (n : BitVec 32) : EncodeFits.Statement (.decRun n) := ⟨by
  simp only [encode, Format.width]; decide, fun h => by cases h⟩
theorem EncodeFits.txEncode (c : BitVec 32) : EncodeFits.Statement (.txEncode c) := ⟨by
  simp only [encode, Format.width]; decide, fun h => by cases h⟩
theorem EncodeFits.txBurst (on off : BitVec 32) : EncodeFits.Statement (.txBurst on off) := ⟨by
  simp only [encode, Format.width]; decide, fun h => by cases h⟩

end Sys2Proof.Laws
end

