-- ==== Sys2Proof/Laws/Runs.lean ====
section
/-! SUPPORT. Runs of one event, step by step, and the environment's count of events. -/

namespace Sys2Proof.Machine

@[simp] theorem ticks_zero (s : State) : ticks 0 s = s := rfl

theorem ticks_succ (j : Nat) (s : State) : ticks (j + 1) s = tickEvent (ticks j s) :=
  Function.iterate_succ_apply' tickEvent j s

@[simp] theorem edges_zero (s : State) : edges 0 s = s := rfl

theorem edges_succ (j : Nat) (s : State) : edges (j + 1) s = edgeEvent (edges j s) :=
  Function.iterate_succ_apply' edgeEvent j s

/-- Within one event of the exact quotient: the count lies in a range of at most three values. -/
theorem withinOneEvent_iff_div {elapsed period n : Nat} (hp : 0 < period) :
    withinOneEvent elapsed period n ↔ n ≤ elapsed / period + 1 ∧ elapsed ≤ (n + 1) * period := by
  unfold withinOneEvent
  rw [← Nat.add_div_right _ hp, Nat.le_div_iff_mul_le hp]

end Sys2Proof.Machine
end

