-- ==== Sys2Proof/Laws/Step.lean ====
section
/-! SUPPORT. The step: where its input comes from, and everything it can do. -/

namespace Sys2Proof.Machine

/-- Everything a fetch can do: it takes the first waiting input, or it draws a choice of the environment. -/
theorem fetch_cases (s : State) :
    (∃ c rest, s.inbox = c :: rest ∧ fetch s = (c, { s with inbox := rest })) ∨
    (s.inbox = [] ∧ fetch s =
      (envCmd (Config.environment s.envSteps), { s with envSteps := s.envSteps + 1 })) := by
  unfold fetch
  split
  · rename_i c rest h; exact .inl ⟨c, rest, h, rfl⟩
  · rename_i h; exact .inr ⟨h, rfl⟩

/-- The environment only makes agents' steps. -/
theorem envCmd_isAgentStep (e : EnvStep) : (envCmd e).isAgentStep = true := by
  cases e <;> rfl

/-- Everything a step can do when it answers a next state. -/
theorem step_next {s t : State} (h : step s = .next t) :
    paramsOk s.cfg = true ∧
      ((fetch s).1 = .reset ∧ t = resetEvent (fetch s).2 ∨
        ∃ sl i, (fetch s).1 = .op sl ∧ decode sl = .ok i ∧ exec i (fetch s).2 = .next t) := by
  unfold step at h
  split at h
  · rename_i hp
    refine ⟨hp, ?_⟩
    split at h
    · rename_i s' hf
      cases h; rw [hf]; exact .inl ⟨rfl, rfl⟩
    · rename_i sl s' hf
      split at h
      · rename_i i hd
        rw [hf]; exact .inr ⟨sl, i, rfl, hd, h⟩
      · cases h
  · cases h

/-- Everything a step can do when it faults. -/
theorem step_fault {s : State} {f : Fault} (h : step s = .fault f) :
    ∃ sl i, (fetch s).1 = .op sl ∧ decode sl = .ok i ∧ exec i (fetch s).2 = .fault f := by
  unfold step at h
  split at h
  · split at h
    · cases h
    · rename_i sl s' hf
      split at h
      · rename_i i hd
        rw [hf]; exact ⟨sl, i, rfl, hd, h⟩
      · cases h
  · cases h

/-- A fetch writes the waiting inputs and the environment's counter, and nothing else. -/
theorem fetch_frame (s : State) :
    (fetch s).2 = { s with inbox := (fetch s).2.inbox, envSteps := (fetch s).2.envSteps } := by
  rcases fetch_cases s with ⟨c, rest, -, h⟩ | ⟨-, h⟩ <;> rw [h]

end Sys2Proof.Machine
end

