-- ==== Sys2Proof/Laws/Transmitter.lean ====
section
/-! SUPPORT. The transmitter: the waveform as a list of segments, the fire, and what the sequencer does in the
course of one segment and at its end. -/

namespace Sys2Proof.Machine

/-! ### Waveforms -/

@[simp] theorem waveTicks_nil : waveTicks [] = 0 := rfl

@[simp] theorem waveTicks_cons (sg : Segment) (l : List Segment) : waveTicks (sg :: l) = sg.2 + waveTicks l := rfl

@[simp] theorem waveTicks_append (l l' : List Segment) : waveTicks (l ++ l') = waveTicks l + waveTicks l' := by
  simp [waveTicks]

@[simp] theorem segStart_zero (segs : List Segment) : segStart segs 0 = 0 := rfl

theorem segStart_succ {segs : List Segment} {j : Nat} {sg : Segment} (h : segs[j]? = some sg) :
    segStart segs (j + 1) = segStart segs j + sg.2 := by
  have : segs.take (j + 1) = segs.take j ++ [sg] := by
    rw [List.take_add_one, h]; rfl
  rw [segStart, this, waveTicks_append]; rfl

/-- The start after the last segment is the length of the whole. -/
theorem segStart_length (segs : List Segment) : segStart segs segs.length = waveTicks segs := by
  rw [segStart, List.take_length]

/-- Inside segment `j` the level is that segment's. -/
theorem levelAt_segment {segs : List Segment} {j : Nat} {l : Bool} {n i : Nat} (h : segs[j]? = some (l, n))
    (hi : i < n) : levelAt segs (segStart segs j + i) = l := by
  induction segs generalizing j with
  | nil => simp at h
  | cons sg rest ih =>
    obtain ⟨l', n'⟩ := sg
    cases j with
    | zero =>
      simp only [List.getElem?_cons_zero, Option.some.injEq, Prod.mk.injEq] at h
      obtain ⟨rfl, rfl⟩ := h
      simp [levelAt, hi]
    | succ j =>
      simp only [List.getElem?_cons_succ] at h
      have hs : segStart ((l', n') :: rest) (j + 1) = n' + segStart rest j := by
        simp [segStart]
      rw [hs, levelAt, if_neg (by omega), show n' + segStart rest j + i - n' = segStart rest j + i by omega]
      exact ih h

/-- Both segments of a burst, with their lengths. -/
theorem burstSegments_length (on off : Nat) : (burstSegments on off).length = 2 := rfl

theorem bitSegments_length (cfg : Params) (b : Bool) : (bitSegments cfg b).length = 2 := by cases b <;> rfl

/-- The waveform of a procedure has at least one segment, unless there is no procedure. -/
theorem procSegments_ne_nil {cfg : Params} {p : TxProc} (h : p ≠ .idle) : 0 < (procSegments cfg p).length := by
  cases p with
  | idle => exact absurd rfl h
  | fire c => simp [procSegments, wave, burstSegments]
  | encode c => simp [procSegments, wave, burstSegments]
  | burst on off => simp [procSegments, burstSegments]

/-! ### One fire -/

theorem txSelect_eq (s : State) : txFsm.select s = if s.txCode = 0 then none else some .x1 := by
  cases h : decide (s.txCode ≠ 0)
  · have h' : s.txCode = 0 := by simpa using h
    rw [if_pos h', Fsm.select, List.find?_eq_none]
    intro r _
    simp [txFsm, h']
  · have h' : s.txCode ≠ 0 := by simpa using h
    rw [if_neg h', Fsm.select]
    change List.find? (fun r => decide (TxState.waiting = s.txState) && decide (s.txCode ≠ 0)) [TxRow.x1] = some TxRow.x1
    rw [h]; rfl

theorem txFire_eq (s : State) :
    txFsm.fire s = if s.txCode = 0 then s else beginEncode (.fire s.txCode) s := by
  rw [Fsm.fire, txSelect_eq]
  by_cases h : s.txCode = 0
  · rw [if_pos h, if_pos h]
  · rw [if_neg h, if_neg h]; rfl

theorem txTryRow_eq (s : State) : txFsm.tryRow .x1 s = txFsm.fire s := by
  rcases txFsm.tryRow_cases .x1 s with ⟨-, -, h⟩ | ⟨h1, h2⟩
  · exact h.symm
  · rw [h2]
    rcases txFsm.fire_cases s with ⟨r, h3, -⟩ | ⟨-, h3⟩
    · cases r; exact absurd h3 h1
    · exact h3.symm

/-! ### The sequencer, tick by tick -/

/-- A check before the segment has lasted its ticks does nothing. -/
theorem sequencerCheck_within {s : State} {l : Bool} {n : Nat}
    (h : (procSegments s.cfg s.txProc)[s.txSeg]? = some (l, n))
    (hn : (tickSub s.cfg.tickW s.tick s.txSegStart).toNat < n) : sequencerCheck s = s := by
  simp only [sequencerCheck, h, if_neg (Nat.not_le.mpr hn)]

/-- A check at the end of a segment that is not the last begins the next one. -/
theorem sequencerCheck_advance {s : State} {l l' : Bool} {n n' : Nat}
    (h : (procSegments s.cfg s.txProc)[s.txSeg]? = some (l, n))
    (h' : (procSegments s.cfg s.txProc)[s.txSeg + 1]? = some (l', n'))
    (hn : n ≤ (tickSub s.cfg.tickW s.tick s.txSegStart).toNat) :
    sequencerCheck s = { s with txSeg := s.txSeg + 1, txSegStart := s.tick, carrier := l' } := by
  simp only [sequencerCheck, h, h', if_pos hn]

/-- A check at the end of the last segment ends the procedure. -/
theorem sequencerCheck_finish {s : State} {l : Bool} {n : Nat}
    (h : (procSegments s.cfg s.txProc)[s.txSeg]? = some (l, n))
    (h' : (procSegments s.cfg s.txProc)[s.txSeg + 1]? = none)
    (hn : n ≤ (tickSub s.cfg.tickW s.tick s.txSegStart).toNat) : sequencerCheck s = endProc s := by
  simp only [sequencerCheck, h, h', if_pos hn]

/-- The state `r` ticks into segment `i` of the procedure in progress, when the procedure began at tick `k`
and the segment's level is `l`. -/
def emissionAt (s : State) (k i r : Nat) (l : Bool) : State :=
  { s with
    tick := tickOf s.cfg.tickW (k + segStart (procSegments s.cfg s.txProc) i + r), carrier := l, txSeg := i,
    txSegStart := tickOf s.cfg.tickW (k + segStart (procSegments s.cfg s.txProc) i) }

/-- A `TICK` inside a segment moves one tick on in it. -/
theorem tickEvent_within {s : State} {k i r n : Nat} {l : Bool} (hrun : s.tickRun = true)
    (h : (procSegments s.cfg s.txProc)[i]? = some (l, n)) (hn : n < tickModulus s.cfg.tickW) (hr : r + 1 < n) :
    tickEvent (emissionAt s k i r l) = emissionAt s k i (r + 1) l := by
  rw [tickEvent_eq, if_pos (by exact hrun)]
  have e : ({ emissionAt s k i r l with
      tick := tickSucc (emissionAt s k i r l).cfg.tickW (emissionAt s k i r l).tick } : State) =
      emissionAt s k i (r + 1) l := by
    simp only [emissionAt, tickSucc_tickOf, Nat.add_assoc]
  rw [e]
  refine sequencerCheck_within (l := l) (n := n) h ?_
  simp only [emissionAt]
  rw [tickSub_tickOf _ _ _ (by omega)]; exact hr

/-- The last `TICK` of a segment: the next segment begins, or the procedure ends. -/
theorem tickEvent_last {s : State} {k i n : Nat} {l : Bool} (hrun : s.tickRun = true)
    (h : (procSegments s.cfg s.txProc)[i]? = some (l, n)) (hn : n < tickModulus s.cfg.tickW) (h0 : 1 ≤ n) :
    (∀ l' n', (procSegments s.cfg s.txProc)[i + 1]? = some (l', n') →
      tickEvent (emissionAt s k i (n - 1) l) = emissionAt s k (i + 1) 0 l') ∧
    ((procSegments s.cfg s.txProc)[i + 1]? = none →
      tickEvent (emissionAt s k i (n - 1) l) = endProc (emissionAt s k i n l)) := by
  have e : ({ emissionAt s k i (n - 1) l with
      tick := tickSucc (emissionAt s k i (n - 1) l).cfg.tickW (emissionAt s k i (n - 1) l).tick } : State) =
      emissionAt s k i n l := by
    simp only [emissionAt, tickSucc_tickOf, Nat.add_assoc]
    rw [Nat.sub_add_cancel h0]
  have hsub : n ≤ (tickSub (emissionAt s k i n l).cfg.tickW (emissionAt s k i n l).tick
      (emissionAt s k i n l).txSegStart).toNat := by
    simp only [emissionAt]; rw [tickSub_tickOf _ _ _ hn]
  have hr : (emissionAt s k i (n - 1) l).tickRun = true := hrun
  constructor
  · intro l' n' h'
    rw [tickEvent_eq, if_pos hr, e, sequencerCheck_advance (s := emissionAt s k i n l) h h' hsub]
    simp only [emissionAt, segStart_succ h, Nat.add_assoc, Nat.add_zero]
  · intro h'
    rw [tickEvent_eq, if_pos hr, e]
    exact sequencerCheck_finish (s := emissionAt s k i n l) h h' hsub

/-- A waveform's segments have counts that a well-formed parameter set allows. -/
theorem wave_counts {cfg : Params} (h : paramsOk cfg = true) (c : BitVec 32) :
    ∀ sg ∈ wave cfg c, 1 ≤ sg.2 ∧ sg.2 < tickModulus cfg.tickW := by
  simp only [paramsOk, Bool.and_eq_true, List.all_eq_true, countOk_iff, and_assoc] at h
  have h1 := h.1
  have hb : ∀ b, bitSegments cfg b = [(true, if b then cfg.txSym1On else cfg.txSym0On),
      (false, if b then cfg.txSym1Off else cfg.txSym0Off)] := fun b => by cases b <;> rfl
  intro sg hsg
  simp only [wave, List.mem_append, List.mem_flatMap, hb, burstSegments, List.mem_cons, List.not_mem_nil,
    or_false] at hsg
  rcases hsg with ((rfl | rfl) | ⟨k, -, (rfl | rfl)⟩) | (rfl | rfl) <;> simp only <;> try split
  all_goals exact h1 _ (by simp)

/-! ### The operations of the transmit side, when they answer a next state -/

theorem fireTransmitter_next {s t : State} (h : fireTransmitter s = .next t) :
    s.txProc = .idle ∧ t = txFsm.fire s := by
  obtain ⟨hp, h⟩ := hostSide_next h
  cases h; exact ⟨hp, rfl⟩

theorem execX1_next {s t : State} (h : execX1 s = .next t) : s.txProc = .idle ∧ t = txFsm.fire s := by
  obtain ⟨hp, h⟩ := hostSide_next h
  cases h; exact ⟨hp, txTryRow_eq s⟩

theorem execTxBurst_next {on off : BitVec 32} {s t : State} (h : execTxBurst on off s = .next t) :
    s.txProc = .idle ∧ (burstCountOk s on = true ∧ burstCountOk s off = true) ∧
      t = beginProc (.burst on.toNat off.toNat) s := by
  obtain ⟨hp, h⟩ := hostSide_next h
  split at h
  · rename_i hb
    cases h; exact ⟨hp, hb, rfl⟩
  · cases h

end Sys2Proof.Machine
end

