-- ==== Sys2Proof/Laws/Wire.lean ====
section
/-! SUPPORT. The wire symbols and the binding of an engine instance: what each can do. -/

namespace Sys2Proof.Machine

/-- Everything a symbol can do when it answers a next state. -/
theorem wireBurst_next {side : WireSide} {on off : Nat} {s t : State} (h : wireBurst side on off s = .next t) :
    (side = .send ∧ s.txProc = .idle ∧ t = beginProc (.burst on off) s) ∨
      (side = .receive ∧ t = receiveBurst on off s) := by
  cases side
  · obtain ⟨hp, h⟩ := hostSide_next h
    cases h; exact .inl ⟨rfl, hp, rfl⟩
  · cases h; exact .inr ⟨rfl, rfl⟩

/-- The arrival of a symbol faults in no state and is refused in none. -/
theorem wireBurst_receive (on off : Nat) (s : State) :
    wireBurst .receive on off s = .next (receiveBurst on off s) := rfl

/-- An interval is its edge and its ticks. -/
theorem intervalCmds_length (n : Nat) : (intervalCmds n).length = n + 1 := by
  simp [intervalCmds]

/-- What binding an instance does: its state register, and nothing else. -/
theorem initFsm_eq (m : FsmId) (s : State) :
    initFsm m s = match m with
      | .framer => { s with rxState := .off }
      | .decoder => { s with dec := { s.dec with state := .idle } }
      | .transmitter => { s with txState := .waiting } := by
  cases m <;> rfl

end Sys2Proof.Machine
end

