-- ==== Sys2Proof/Tests/Slice0.lean ====
section
/-! SUPPORT. Tests: the words of every constructor, written from the encodings of R110 to R113; the operand
checks; one or two steps for each instruction, with the results that 95_test_vectors.md or the named rule
gives; and the witnesses of the statements' hypotheses. -/

namespace Sys2Proof.Tests

open Sys2Proof.Machine

/-! ### Helpers -/

/-- An edge buffer that holds these timestamps from index 0. -/
def buffer (ts : List Nat) : Memory := (List.range ts.length).zip (ts.map (BitVec.ofNat 32))

/-- The state after reset with these timestamps captured. -/
def captured (ts : List Nat) : State := { State.reset with ebuf := buffer ts, ecount := ts.length }

/-- The state after reset, the decoder at these working registers over these timestamps. -/
def decoding (ts : List Nat) (d : Dec) : State := { captured ts with dec := d }

/-- A framer state, in the notation of section 2.9 of 95_test_vectors.md. -/
def framing (q : RxState) (en : Bool) (lastCount lastTime : BitVec 32) (ts : List Nat) (cap run : Bool)
    (ms : BitVec 32) : State :=
  { captured ts with
    rxState := q, rxEnabled := en, rxLastCount := lastCount, rxLastTime := lastTime, capEn := cap,
    tickRun := run, ms := ms }

/-- The state after an instruction, where it answers one. -/
def after (i : Instr) (s : State) : State :=
  match exec i s with
  | .next t => t
  | _ => s

/-- The instruction answers a next state. -/
def completes (i : Instr) (s : State) : Bool :=
  match exec i s with
  | .next _ => true
  | _ => false

/-- The refusal an instruction ends in, if it does. -/
def refusalOf (i : Instr) (s : State) : Option Refusal :=
  match exec i s with
  | .refused r => some r
  | _ => none

/-- The decoder reads this slot as this instruction. -/
def reads (sl : Slot) (i : Instr) : Bool := decide ((decode sl).toOption = some i)

/-- The first 67 timestamps of the waveform of 0x20DF10EF (V-DEC-7). -/
def e20DF10EF : List Nat :=
  [0, 160, 240, 250, 260, 270, 280, 290, 320, 330, 340, 350, 360, 370, 380, 390] ++
  [400, 410, 420, 430, 460, 470, 500, 510, 520, 530, 560, 570, 600, 610, 640, 650] ++
  [680, 690, 720, 730, 740, 750, 760, 770, 780, 790, 820, 830, 840, 850, 860, 870] ++
  [880, 890, 900, 910, 940, 950, 980, 990, 1020, 1030, 1040, 1050, 1080, 1090] ++
  [1120, 1130, 1160, 1170, 1200]

/-! ### `WellFormed`: each check refuses an ill-formed instruction and takes its boundary -/

theorem test_wf_decRun_refused : (Instr.decRun 68).wellFormed = false := by decide
theorem test_wf_decRun_boundary : (Instr.decRun 67).wellFormed = true := by decide
theorem test_wf_txEncode_refused : (Instr.txEncode 0).wellFormed = false := by decide
theorem test_wf_txBurst_refused_on : (Instr.txBurst 0 1).wellFormed = false := by decide
theorem test_wf_txBurst_refused_off : (Instr.txBurst 1 0).wellFormed = false := by decide

/-! ### Decoding: one word for every constructor -/

/-- R111. -/
theorem test_decode_hostop :
    reads ⟨.hostop, 0x000000000, 0, 0⟩ .rxFire ∧ reads ⟨.hostop, 0x100000001, 0, 0⟩ (.rxSeten true) ∧
    reads ⟨.hostop, 0x1FFFFFFFE, 0, 0⟩ (.rxSeten false) ∧ reads ⟨.hostop, 0x200000000, 0, 0⟩ .rxGetcode ∧
    reads ⟨.hostop, 0x300000000, 0, 0⟩ .rxGetrep ∧ reads ⟨.hostop, 0x4FFFFFFFF, 0, 0⟩ .rxGeterr ∧
    reads ⟨.hostop, 0x500000000, 0, 0⟩ .rxResetcode ∧ reads ⟨.hostop, 0x600000000, 0, 0⟩ .rxIsactive ∧
    reads ⟨.hostop, 0x800000000, 0, 0⟩ .txFire ∧ reads ⟨.hostop, 0x920DF10EF, 0, 0⟩ (.txSetcode 0x20DF10EF) ∧
    reads ⟨.hostop, 0xA00000000, 0, 0⟩ .txIsactive := by decide

/-- R158 to R168: from-state number, then priority. -/
theorem test_decode_decT :
    reads ⟨.decT, 0b0000, 0, 0⟩ .t1 ∧ reads ⟨.decT, 0b0001, 0, 0⟩ .t2 ∧ reads ⟨.decT, 0b0100, 0, 0⟩ .t3 ∧
    reads ⟨.decT, 0b0101, 0, 0⟩ .t4 ∧ reads ⟨.decT, 0b0110, 0, 0⟩ .t5 ∧ reads ⟨.decT, 0b1000, 0, 0⟩ .t6 ∧
    reads ⟨.decT, 0b1001, 0, 0⟩ .t7 ∧ reads ⟨.decT, 0b1010, 0, 0⟩ .t8 ∧ reads ⟨.decT, 0b1100, 0, 0⟩ .t9 ∧
    reads ⟨.decT, 0b1101, 0, 0⟩ .t10 ∧ reads ⟨.decT, 0b1110, 0, 0⟩ .t11 := by decide

/-- R192 to R197, R233. -/
theorem test_decode_rxfT_txT :
    reads ⟨.rxfT, 0b0000, 0, 0⟩ .f1 ∧ reads ⟨.rxfT, 0b0100, 0, 0⟩ .f2 ∧ reads ⟨.rxfT, 0b0101, 0, 0⟩ .f3 ∧
    reads ⟨.rxfT, 0b1000, 0, 0⟩ .f4 ∧ reads ⟨.rxfT, 0b1001, 0, 0⟩ .f5 ∧ reads ⟨.rxfT, 0b1010, 0, 0⟩ .f6 ∧
    reads ⟨.txT, 0b00, 0, 0⟩ .x1 := by decide

/-- R113, classes WIRE and EVENT. -/
theorem test_decode_wire_event :
    reads ⟨.wire, 0b000, 0, 0⟩ (.prologue .send) ∧ reads ⟨.wire, 0b001, 1, 0⟩ (.sym0 .receive) ∧
    reads ⟨.wire, 0b010, 0, 0⟩ (.sym1 .send) ∧ reads ⟨.wire, 0b011, 1, 0⟩ (.epilogue .receive) ∧
    reads ⟨.wire, 0b100, 0, 0⟩ .repeatFrame ∧ reads ⟨.event, 0b00, 0, 0⟩ .tick ∧
    reads ⟨.event, 0b01, 0, 0⟩ .mstick ∧ reads ⟨.event, 0b10, 0, 0⟩ .edge := by decide

/-- R113, class PRIM. -/
theorem test_decode_prim :
    reads ⟨.prim, 0b0000, 0, 0⟩ .nowMillis ∧ reads ⟨.prim, 0b0001, 0, 0⟩ .currentTick ∧
    reads ⟨.prim, 0b0010, 0, 0⟩ .startTimer ∧ reads ⟨.prim, 0b0011, 0, 0⟩ .stopTimer ∧
    reads ⟨.prim, 0b0100, 1, 0⟩ (.setCarrier true) ∧ reads ⟨.prim, 0b0101, 0, 0⟩ .getEdgeCount ∧
    reads ⟨.prim, 0b0110, 0, 0⟩ .getEdgeBuffer ∧ reads ⟨.prim, 0b0111, 0, 0⟩ .clearEdgeBuffer ∧
    reads ⟨.prim, 0b1000, 1, 0⟩ (.enableCapture true) := by decide

/-- R113, classes FSMOP and INTOP. -/
theorem test_decode_fsmop_intop :
    reads ⟨.fsmop, 0b00, 1, 0⟩ (.fsmInit .decoder .own) ∧ reads ⟨.fsmop, 0b00, 2, 1⟩ (.fsmInit .transmitter .empty) ∧
    reads ⟨.fsmop, 0b01, 2, 0⟩ (.fsmFire .transmitter) ∧ reads ⟨.fsmop, 0b10, 0, 0⟩ (.fsmDestroy .framer) ∧
    reads ⟨.intop, 0b00, 67, 0⟩ (.decRun 67) ∧ reads ⟨.intop, 0b01, 0x20DF10EF, 0⟩ (.txEncode 0x20DF10EF) ∧
    reads ⟨.intop, 0b10, 10, 30⟩ (.txBurst 10 30) := by decide

/-- What no row has is rejected by name (U9, R113). -/
theorem test_decode_rejects :
    decode ⟨.hostop, 0xB00000000, 0, 0⟩ = .error (.undefinedHostOp 11) ∧
    decode ⟨.decT, 0b0011, 0, 0⟩ = .error (.unknownCode .decT) ∧
    decode ⟨.event, 0b11, 0, 0⟩ = .error (.unknownCode .event) ∧
    decode ⟨.intop, 0b00, 68, 0⟩ = .error (.badOperand .intop) ∧
    decode ⟨.event, 0b00, 1, 0⟩ = .error (.strayOperand .event) := ⟨rfl, rfl, rfl, rfl, rfl⟩

/-- Bare words of the operation table: a host word, an event, a decoder row, a primitive. -/
theorem test_table_words :
    decodeTableWord 40 0x920DF10EF = some (.txSetcode 0x20DF10EF) ∧ decodeTableWord 8 0b10 = some .edge ∧
    decodeTableWord 8 0b1101 = some .t10 ∧ decodeTableWord 8 0b0111 = some .clearEdgeBuffer := by decide

/-- The first step after reset runs a presented word (`RX.SETEN 1`, V-RXF-20). -/
theorem test_step_presented :
    (match step (State.reset.withFetchWord 40 0x1FFFFFFFF) with
      | .next t => t.rxEnabled && t.inbox.isEmpty
      | _ => false) = true := by decide

/-! ### The host's operations -/

/-- V-RXF-2: F1 by `RX.FIRE`, and by itself. -/
def off2 : State := { framing .off true 0 0 [1, 2, 3, 4, 5] false false 0 with tick := 777 }

theorem test_rxFire_arms :
    (after .rxFire off2).rxState = .idle ∧ (after .rxFire off2).tick = 0 ∧ (after .rxFire off2).ecount = 0 ∧
    (after .rxFire off2).capEn = true ∧ after .f1 off2 = after .rxFire off2 := by decide

/-- V-RXF-7, 8: the timeout is strict. -/
theorem test_rxFire_timeout_strict :
    after .rxFire (framing .wait true 4 1000 [0, 160, 200, 210] true true 1020) =
      framing .wait true 4 1000 [0, 160, 200, 210] true true 1020 ∧
    (after .rxFire (framing .wait true 4 1000 [0, 160, 200, 210] true true 1021)).rxState = .idle ∧
    (after .rxFire (framing .wait true 4 1000 [0, 160, 200, 210] true true 1021)).rxRep = true := by decide

theorem test_rxSeten : (after (.rxSeten true) State.reset).rxEnabled = true ∧
    (after (.rxSeten true) State.reset).rxState = .off := by decide

/-- V-RXF-15: no clear on read. -/
theorem test_rxGetcode :
    (after .rxGetcode (after .rxGetcode { State.reset with rxCode := 0x00FF00FF })).res = .word 0x00FF00FF := by decide

theorem test_rxGetrep : (after .rxGetrep { State.reset with rxRep := true }).res = .word 1 := by decide

theorem test_rxGeterr : (after .rxGeterr { State.reset with rxErr := true }).res = .word 1 := by decide

/-- V-RXF-16. -/
theorem test_rxResetcode :
    (after .rxGetrep (after .rxResetcode { State.reset with rxRep := true })).res = .word 0 := by decide

/-- V-RXF-17, 18. -/
theorem test_rxIsactive :
    (after .rxIsactive (framing .idle true 0 0 [1, 2] true true 0)).res = .word 0 ∧
    (after .rxIsactive (framing .wait true 1 0 [1, 2] true true 0)).res = .word 1 := by decide

/-- V-TX-6: the start of an emission; V-TX-4: no code pending. -/
theorem test_txFire :
    (after .txFire { State.reset with txCode := 0x80000001 }).carrier = true ∧
    (after .txFire { State.reset with txCode := 0x80000001 }).tickRun = true ∧
    after .txFire State.reset = State.reset := by decide

/-- V-TX-2, V-TX-3. -/
theorem test_txSetcode :
    (after (.txSetcode 0) { State.reset with txCode := 0x00FF00FF }).txCode = 0x00FF00FF ∧
    (after (.txSetcode 0x20DF10EF) { State.reset with txCode := 0x00FF00FF }).txCode = 0x20DF10EF := by decide

/-- V-TX-5. -/
theorem test_txIsactive : (after .txIsactive { State.reset with txCode := 0x20DF10EF }).res = .word 0 := by decide

/-- U23: the host is blocked during an emission. -/
theorem test_host_blocked :
    refusalOf .rxGetcode (after .txFire { State.reset with txCode := 1 }) = some .hostBlocked := by decide

/-! ### The decoder's rows, each at a boundary of its window -/

/-- V-DEC-30a to d: T1 at 120 and 200, T2 at 119 and 201. -/
theorem test_t1 :
    (after .t1 (decoding [0, 120] { decStart 2 with code := 7 })).dec =
      { decStart 2 with state := .init, pos := 1, rem := 1, code := 0 } ∧
    (after .t1 (decoding [0, 201] (decStart 2))).dec = decStart 2 := by decide

theorem test_t2 :
    (after .t2 (decoding [0, 119] (decStart 2))).dec = { decStart 2 with pos := 2, rem := 0 } ∧
    (after .t2 (decoding [0, 200] (decStart 2))).dec = decStart 2 := by decide

/-- V-DEC-31f: T3 at 60; V-DEC-31b: T4 at 30; V-DEC-31e: T5 at 59. -/
theorem test_t3 :
    (after .t3 (decoding [0, 60] { decStart 2 with state := .init, rep := true })).dec =
      { decStart 2 with state := .symbolSilence, pos := 1, rem := 1, bits := 32, rep := false } := by decide

theorem test_t4 :
    (after .t4 (decoding [0, 30] { decStart 2 with state := .init, bits := 5 })).dec =
      { decStart 2 with state := .symbolSilence, pos := 1, rem := 1, bits := 0, rep := true } := by decide

theorem test_t5 :
    (after .t5 (decoding [0, 59] { decStart 2 with state := .init })).dec =
      { decStart 2 with state := .idle, pos := 1, rem := 1 } := by decide

/-- R163: whatever the interval, also at the buffer's last entry. -/
theorem test_t6 :
    (after .t6 (decoding [] { decStart 2 with state := .symbolSilence, pos := 66 })).dec =
      { decStart 2 with state := .idle, pos := 66, rem := 0 } := by decide

/-- V-DEC-32b, c: T7 at 8 and 12; V-DEC-32a: T8 at 7. -/
theorem test_t7 :
    (after .t7 (decoding [0, 12] { decStart 2 with state := .symbolSilence, bits := 1 })).dec =
      { decStart 2 with state := .symbolPulse, pos := 1, rem := 1, bits := 1 } := by decide

theorem test_t8 :
    (after .t8 (decoding [0, 7] { decStart 2 with state := .symbolSilence, bits := 1, code := 1 })).dec =
      { decStart 2 with state := .idle, pos := 1, rem := 1, bits := 1, code := 1 } := by decide

/-- V-DEC-33c: T9 at 12; V-DEC-33f: T10 at 23; V-DEC-33e: T11 at 22. -/
theorem test_t9 :
    (after .t9 (decoding [0, 12] { decStart 2 with state := .symbolPulse, bits := 32, code := 0x80000001 })).dec =
      { decStart 2 with state := .symbolSilence, pos := 1, rem := 1, bits := 31, code := 2 } := by decide

theorem test_t10 :
    (after .t10 (decoding [0, 23] { decStart 2 with state := .symbolPulse, bits := 32, code := 0x80000001 })).dec =
      { decStart 2 with state := .symbolSilence, pos := 1, rem := 1, bits := 31, code := 3 } := by decide

theorem test_t11 :
    (after .t11 (decoding [0, 22] { decStart 2 with state := .symbolPulse, bits := 32, code := 1 })).dec =
      { decStart 2 with state := .idle, pos := 1, rem := 1, bits := 32, code := 1 } := by decide

/-! ### The framer's rows -/

/-- V-RXF-5: disabled beats new edges. -/
theorem test_f2 :
    after .f2 (framing .idle false 0 0 [1, 2] true true 0) = framing .off false 0 0 [1, 2] false false 0 := by decide

/-- V-RXF-4. -/
theorem test_f3 :
    after .f3 (framing .idle true 0 0 [1, 2, 3] true true 1000) =
      framing .wait true 3 1000 [1, 2, 3] true true 1000 := by decide

/-- V-RXF-11. -/
theorem test_f4 :
    after .f4 (framing .wait false 3 0 [1, 2, 3, 4] true true 500) =
      framing .off false 0 0 [1, 2, 3, 4] false false 500 := by decide

/-- V-RXF-12: new edges beat the timeout. -/
theorem test_f5 :
    after .f5 (framing .wait true 3 0 [1, 2, 3, 4] true true 500) =
      framing .wait true 4 500 [1, 2, 3, 4] true true 500 := by decide

/-- V-RXF-9, 10: the millisecond difference wraps. -/
theorem test_f6 :
    (after .f6 (framing .wait true 1 0xFFFFFFF0 [77] true true 5)).rxErr = true ∧
    after .f6 (framing .wait true 1 0xFFFFFFF0 [77] true true 4) =
      framing .wait true 1 0xFFFFFFF0 [77] true true 4 := by decide

theorem test_x1 : after .x1 { State.reset with txCode := 5 } = after .txFire { State.reset with txCode := 5 } := by
  decide

/-! ### The wire -/

theorem test_prologue :
    (after (.prologue .send) State.reset).txProc = .burst 160 80 ∧
    (after (.prologue .receive) State.reset).inbox.length = 242 := by decide +kernel

theorem test_sym0 : (after (.sym0 .send) State.reset).txProc = .burst 10 10 := by decide

theorem test_sym1 : (after (.sym1 .send) State.reset).txProc = .burst 10 30 := by decide

theorem test_epilogue : (after (.epilogue .send) State.reset).txProc = .burst 10 3560 := by decide

/-- R91, R93: a repetition frame arrives, in every state. -/
theorem test_repeatFrame : completes .repeatFrame State.reset = true := rfl

/-! ### Events and primitives -/

/-- V-EV-1, V-EV-2. -/
theorem test_tick :
    (after .tick { State.reset with tick := 65535, tickRun := true }).tick = 0 ∧
    (after .tick { State.reset with tick := 41 }).tick = 41 := by decide

/-- V-EV-3. -/
theorem test_mstick : (after .mstick { State.reset with ms := 0xFFFFFFFF }).ms = 0 := by decide

/-- V-EV-4, V-EV-8. -/
theorem test_edge :
    (after .edge { State.reset with capEn := true, tick := 1000 }).ebuf = [(0, 1000)] ∧
    (after .edge (after .edge { State.reset with capEn := true, tick := 41 })).ebuf = [(0, 41), (1, 41)] := by decide

/-- V-EV-6, V-EV-7. -/
theorem test_edge_drops :
    after .edge { State.reset with capEn := true, tick := 2210, ecount := 67 } =
      { State.reset with capEn := true, tick := 2210, ecount := 67 } ∧
    after .edge (captured [1, 2, 3, 4, 5]) = captured [1, 2, 3, 4, 5] := by decide

theorem test_nowMillis : (after .nowMillis { State.reset with ms := 7 }).res = .word 7 := by decide

theorem test_currentTick : (after .currentTick { State.reset with tick := 9 }).res = .word 9 := by decide

/-- V-EV-9, V-EV-10. -/
theorem test_startTimer :
    (after .startTimer { State.reset with tick := 900 }).tick = 0 ∧
    (after .startTimer { State.reset with tick := 900 }).tickRun = true := by decide

theorem test_stopTimer :
    (after .stopTimer { State.reset with tick := 900, tickRun := true }).tick = 900 ∧
    (after .stopTimer { State.reset with tick := 900, tickRun := true }).tickRun = false := by decide

theorem test_setCarrier : (after (.setCarrier true) State.reset).carrier = true := by decide

theorem test_getEdgeCount : (after .getEdgeCount (captured [4, 5, 6])).res = .word 3 := by decide

theorem test_getEdgeBuffer : (after .getEdgeBuffer (captured [4, 5])).res = .view [(0, 4), (1, 5)] := by decide

/-- V-EV-11. -/
theorem test_clearEdgeBuffer : (after .clearEdgeBuffer { State.reset with ecount := 67 }).ecount = 0 := by decide

theorem test_enableCapture : (after (.enableCapture true) State.reset).capEn = true := by decide

/-! ### The engine, the procedures -/

/-- V-FSM-7, V-FSM-8. -/
theorem test_fsmInit :
    (after (.fsmInit .framer .own) (framing .wait true 1 0 [1] true true 0)).rxState = .off ∧
    refusalOf (.fsmInit .framer .empty) State.reset = some .emptyTable := by decide

theorem test_fsmFire :
    (after (.fsmFire .decoder) (decoding [0, 160] (decStart 2))).dec.state = .init ∧
    after (.fsmFire .framer) off2 = after .f1 off2 := by decide

/-- V-FSM-9. -/
theorem test_fsmDestroy : after (.fsmDestroy .decoder) State.reset = State.reset := by decide

/-- V-DEC-7: a whole frame. -/
theorem test_decRun_frame :
    (after (.decRun 67) (captured e20DF10EF)).res = .frame 0x20DF10EF false false := by decide +kernel

/-- V-DEC-10: a repetition; V-SRC-8L: the printed buffer is noise. -/
theorem test_decRun_short :
    (after (.decRun 4) (captured [0, 160, 200, 210])).res = .frame 0 true false ∧
    (after (.decRun 4) (captured [0, 160, 240, 90])).res = .frame 0 false true := by decide

theorem test_txEncode :
    (after (.txEncode 5) { State.reset with txCode := 9 }).txCode = 9 ∧
    (after (.txEncode 5) State.reset).txProc = .encode 5 := by decide

/-- V-TX-7: at tick 3 the carrier is still on, at tick 4 it is off. -/
theorem test_txBurst :
    (ticks 9 (after (.txBurst 10 30) { State.reset with tick := 65530, tickRun := true })).carrier = true ∧
    (ticks 10 (after (.txBurst 10 30) { State.reset with tick := 65530, tickRun := true })).carrier = false := by
  decide

theorem test_txBurst_refused :
    refusalOf (.txBurst 65536 1) State.reset = some .burstOutOfRange := by decide

/-- R236, V-DEC-3: the waveform of a code with 16 zero bits lasts 4770 ticks. -/
theorem test_dur : dur defaultParams 0x00FF00FF = 4770 := by decide

/-- V-DEC-40: modular subtraction. -/
theorem test_tickSub : tickSub .w16 124 65500 = 160 := by decide

/-! ### Witnesses: for every statement with hypotheses, a state and operands that meet them all together; for
each clause of it, at a boundary of its range -/

/-- The reset state has the structural invariant. -/
theorem test_reset_structural : Structural State.reset := by
  refine ⟨rfl, fun i => ?_, fun i v h => ?_, by decide, by decide, by decide, by decide, ?_, ?_, ?_, ?_⟩
  · simp [State.reset, State.resetWith, Memory.read]
  · simp [State.reset, State.resetWith, Memory.read] at h
  · exact ⟨by decide, by decide, by decide, by decide, by decide, by decide⟩
  · decide
  · decide
  · exact fun h => absurd rfl h

/-- Extensions of a good state by the parts that the structural invariant does not speak about, and by an
idle decoder's registers in range. -/
theorem structural_congr {s t : State} (h : Structural s) (h1 : t.ebuf = s.ebuf) (h2 : t.ecount = s.ecount)
    (h3 : t.cfg = s.cfg) (h4 : t.rxLastCount = s.rxLastCount) (h5 : t.tick = s.tick)
    (h6 : t.txSegStart = s.txSegStart) (h7 : DecOk t.dec) (h8 : t.rxRep = true → t.rxCode = 0)
    (h9 : t.rxErr = true → t.rxCode = 0 ∧ t.rxRep = false) (h10 : t.txProc = s.txProc) (h11 : t.txSeg = s.txSeg) :
    Structural t := by
  obtain ⟨a1, a2, a3, a4, a5, a6, a7, -, -, -, a11⟩ := h
  refine ⟨?_, ?_, ?_, ?_, ?_, ?_, ?_, h7, h8, h9, ?_⟩
  · rwa [h1]
  · rwa [h1, h2]
  · rwa [h1, h3]
  · rwa [h2]
  · rwa [h4]
  · rwa [h5, h3]
  · rwa [h6, h3]
  · rwa [h10, h11, h3]

theorem test_witness_StepRunsDecodedOperation :
    (paramsOk State.reset.cfg = true ∧
      ({ State.reset with inbox := [.op (encode .edge)] } : State).inbox = .op (encode .edge) :: [] ∧
      decode (encode .edge) = .ok .edge) ∧
    decodeTableWord 8 0b10 = some .edge ∧ State.reset.inbox = [] := ⟨by decide, by decide, rfl⟩

/-- A parameter set that breaks R7 (c). -/
def badParams : Params := { defaultParams with wLeadOn := ⟨200, 120⟩ }

theorem test_witness_IllFormedParametersAreRefused :
    paramsOk ({ State.reset with cfg := badParams } : State).cfg = false ∧ paramsOk defaultParams = true := by decide

theorem test_witness_DecodeEncodeRoundTrip :
    (Instr.decRun 67).wellFormed = true ∧ (Instr.txEncode 1).wellFormed = true ∧
    (Instr.txBurst 1 0xFFFFFFFF).wellFormed = true ∧ (Instr.fsmInit .transmitter .empty).wellFormed = true := by decide

theorem test_witness_EncodeDecodeOneSlotEach :
    decode ⟨.intop, 0b00, 67, 0⟩ = .ok (.decRun 67) ∧ Format.intop ≠ .hostop ∧
    decode ⟨.hostop, 0x1FFFFFFFF, 0, 0⟩ = .ok (.rxSeten true) := ⟨rfl, by decide, rfl⟩

theorem test_witness_HostWordTable :
    ((7 : BitVec 4).toNat = 7 ∨ 11 ≤ (7 : BitVec 4).toNat) ∧ ((11 : BitVec 4).toNat = 7 ∨ 11 ≤ (11 : BitVec 4).toNat) ∧
    ((15 : BitVec 4).toNat = 7 ∨ 11 ≤ (15 : BitVec 4).toNat) ∧ paramsOk State.reset.cfg = true ∧
    ({ State.reset with inbox := [.op ⟨.hostop, hostWord 7 0, 0, 0⟩] } : State).inbox =
      .op ⟨.hostop, hostWord 7 0, 0, 0⟩ :: [] := by decide

theorem test_witness_TransitionCodesArePositions :
    (DecRow.t11, Instr.t11) ∈ [(DecRow.t1, Instr.t1), (.t2, .t2), (.t3, .t3), (.t4, .t4), (.t5, .t5), (.t6, .t6),
      (.t7, .t7), (.t8, .t8), (.t9, .t9), (.t10, .t10), (.t11, .t11)] ∧
    (RxRow.f1, Instr.f1) ∈ [(RxRow.f1, Instr.f1), (.f2, .f2), (.f3, .f3), (.f4, .f4), (.f5, .f5), (.f6, .f6)] := by
  decide

/-- The wrap of V-DEC-40, and the largest duration. -/
theorem test_witness_DurationIsModularSubtraction :
    (65500 : Tick).toNat < tickModulus .w16 ∧ (124 : Tick).toNat < tickModulus .w16 ∧ 160 < tickModulus .w16 ∧
    (124 : Tick).toNat = ((65500 : Tick).toNat + 160) % tickModulus .w16 ∧
    65535 < tickModulus .w16 ∧ (65499 : Tick).toNat = ((65500 : Tick).toNat + 65535) % tickModulus .w16 := by decide

theorem test_witness_CommandAssembly : 0 < 32 ∧ 31 < 32 := by decide

/-- The statements whose first hypothesis is that no emission is in progress: `RxSetenWritesEnableOnly`,
`RxResetcodeClearsTheFrame`, `FsmInitSetsFirstFromState`, and the common hypothesis of the others. -/
theorem test_witness_RxSetenWritesEnableOnly :
    State.reset.txProc = .idle ∧
    (framing .idle true 0 0 [] true true 0).rxState = .idle ∧ (framing .idle true 0 0 [] true true 0).txProc = .idle ∧
    (framing .wait true 1 0 [1] true true 0).rxState = .wait ∧ (framing .wait true 1 0 [1] true true 0).txProc = .idle := by
  decide
theorem test_witness_RxResetcodeClearsTheFrame : State.reset.txProc = .idle := rfl
theorem test_witness_FsmInitSetsFirstFromState : State.reset.txProc = .idle := rfl

/-- A received repetition in the frame registers. -/
def repeated : State := { State.reset with rxRep := true }

theorem test_witness_AccessorsAnswerAndChangeNothing :
    repeated.txProc = .idle ∧ Structural repeated ∧ repeated.rxRep = true :=
  ⟨rfl, structural_congr test_reset_structural rfl rfl rfl rfl rfl rfl test_reset_structural.dec_ok (fun _ => rfl)
    (fun h => absurd h (by decide)) rfl rfl, rfl⟩

theorem test_witness_TxSetcodeStoresNonzero :
    State.reset.txProc = .idle ∧ (1 : BitVec 32) ≠ 0 ∧ (0 : BitVec 32) = 0 := by decide

/-- The state at the start of a transmission. -/
def sending : State := after .txFire { State.reset with txCode := 0x80000001 }

theorem test_witness_HostIsBlockedDuringEmission :
    sending.txProc ≠ .idle ∧ hostSideInstr .rxFire = true ∧ hostSideInstr (.prologue .send) = true := by decide

/-! The decoder's rows. -/

theorem test_witness_DecoderFireIsExactlyOneRow :
    (decoding [0, 160] { decStart 2 with pos := 65 }).txProc = .idle ∧
    2 ≤ (decoding [0, 160] { decStart 2 with pos := 65 }).dec.rem ∧
    (decoding [0, 160] { decStart 2 with pos := 65 }).dec.pos + 1 < edgeCap := by decide

theorem test_witness_RowsOfOtherStatesDoNothing :
    State.reset.txProc = .idle ∧ (decoding [] { decStart 1 with state := .init }).dec.rem < 2 ∧
    (decoding [] { decStart 2 with state := .init }).dec.state ≠ .idle ∧ State.reset.dec.state ≠ .init ∧
    State.reset.dec.state ≠ .symbolSilence ∧ State.reset.dec.state ≠ .symbolPulse ∧
    (framing .wait true 0 0 [] true true 0).rxState ≠ .off ∧ State.reset.rxState ≠ .idle ∧
    State.reset.rxState ≠ .wait := by decide

theorem test_witness_IdleRowsFollowLeadOnWindow :
    (decoding [0, 120] (decStart 2)).txProc = .idle ∧ (decoding [0, 120] (decStart 2)).dec.state = .idle ∧
    2 ≤ (decoding [0, 120] (decStart 2)).dec.rem ∧ (decoding [0, 120] (decStart 2)).dec.pos + 1 < edgeCap ∧
    (delta (decoding [0, 120] (decStart 2)) 0).toNat = 120 ∧ (delta (decoding [0, 200] (decStart 2)) 0).toNat = 200 ∧
    (delta (decoding [0, 119] (decStart 2)) 0).toNat = 119 ∧ (delta (decoding [0, 201] (decStart 2)) 0).toNat = 201 ∧
    defaultParams.wLeadOn = ⟨120, 200⟩ := by decide

/-- The decoder in `INIT` over two edges so many ticks apart. -/
def inInit (n : Nat) : State := decoding [0, n] { decStart 2 with state := .init }

/-- The decoder's registers in these states are consistent. -/
theorem structural_decoding {d : Dec} (hd : DecOk d) : Structural { State.reset with dec := d } :=
  structural_congr test_reset_structural rfl rfl rfl rfl rfl rfl hd (fun h => by cases h)
    (fun h => by cases h) rfl rfl

theorem test_witness_InitRowsAcceptPrologueOrNoise :
    (inInit 60).txProc = .idle ∧ (inInit 60).dec.state = .init ∧ 2 ≤ (inInit 60).dec.rem ∧
    (inInit 60).dec.pos + 1 < edgeCap ∧ (delta (inInit 60) 0).toNat = 60 ∧ (delta (inInit 100) 0).toNat = 100 ∧
    (delta (inInit 59) 0).toNat = 59 ∧ (delta (inInit 51) 0).toNat = 51 ∧
    defaultParams.wLeadOff = ⟨60, 100⟩ ∧ defaultParams.wRepOff = ⟨30, 50⟩ ∧
    Structural { State.reset with dec := { decStart 2 with state := .init } } :=
  ⟨rfl, rfl, by decide, by decide, by decide, by decide, by decide, by decide, by decide, by decide,
    structural_decoding ⟨by decide, by decide, by decide, by decide, by decide, by decide⟩⟩

theorem test_witness_InitRowAcceptsRepetition :
    (inInit 30).txProc = .idle ∧ (inInit 30).dec.state = .init ∧ 2 ≤ (inInit 30).dec.rem ∧
    (inInit 30).dec.pos + 1 < edgeCap ∧
    ¬(60 ≤ (delta (inInit 30) 0).toNat ∧ (delta (inInit 30) 0).toNat ≤ 100) ∧ 30 ≤ (delta (inInit 30) 0).toNat ∧
    (delta (inInit 50) 0).toNat ≤ 50 ∧
    2 ≤ (after .t4 (decoding [0, 30, 40] { decStart 3 with state := .init })).dec.rem ∧
    Structural { State.reset with dec := { decStart 2 with state := .init } } :=
  ⟨rfl, rfl, by decide, by decide, by decide, by decide, by decide, by decide,
    structural_decoding ⟨by decide, by decide, by decide, by decide, by decide, by decide⟩⟩

/-- The decoder in `SYMBOL_SILENCE` or `SYMBOL_PULSE` over two edges so many ticks apart, a bit remaining. -/
def inSymbol (q : DecState) (n : Nat) : State := decoding [0, n] { decStart 2 with state := q, bits := 1 }

theorem test_witness_SilenceRowAcceptsBitOn :
    (inSymbol .symbolSilence 8).txProc = .idle ∧ (inSymbol .symbolSilence 8).dec.state = .symbolSilence ∧
    2 ≤ (inSymbol .symbolSilence 8).dec.rem ∧ (inSymbol .symbolSilence 8).dec.pos + 1 < edgeCap ∧
    (inSymbol .symbolSilence 8).dec.bits ≠ 0 ∧ defaultParams.wBitOn = ⟨8, 12⟩ ∧
    (delta (inSymbol .symbolSilence 8) 0).toNat = 8 ∧ (delta (inSymbol .symbolSilence 12) 0).toNat = 12 := by decide

theorem test_witness_SilenceRowEndsTheFrame :
    (decoding [] { decStart 2 with state := .symbolSilence }).txProc = .idle ∧
    (decoding [] { decStart 2 with state := .symbolSilence }).dec.state = .symbolSilence ∧
    2 ≤ (decoding [] { decStart 2 with state := .symbolSilence }).dec.rem ∧
    (decoding [] { decStart 2 with state := .symbolSilence }).dec.bits = 0 := by decide

theorem test_witness_PulseRowsAppendBits :
    (inSymbol .symbolPulse 8).txProc = .idle ∧ (inSymbol .symbolPulse 8).dec.state = .symbolPulse ∧
    2 ≤ (inSymbol .symbolPulse 8).dec.rem ∧ (inSymbol .symbolPulse 8).dec.pos + 1 < edgeCap ∧
    defaultParams.wBit0Off = ⟨8, 12⟩ ∧ defaultParams.wBit1Off = ⟨23, 37⟩ ∧
    (delta (inSymbol .symbolPulse 8) 0).toNat = 8 ∧ (delta (inSymbol .symbolPulse 12) 0).toNat = 12 ∧
    (delta (inSymbol .symbolPulse 23) 0).toNat = 23 ∧ (delta (inSymbol .symbolPulse 37) 0).toNat = 37 ∧
    Structural { State.reset with dec := { decStart 2 with state := .symbolPulse, bits := 1 } } :=
  ⟨rfl, rfl, by decide, by decide, by decide, by decide, by decide, by decide, by decide, by decide,
    structural_decoding ⟨by decide, by decide, by decide, by decide, by decide, by decide⟩⟩

theorem test_witness_SymbolNoiseAborts :
    (inSymbol .symbolSilence 7).txProc = .idle ∧ 2 ≤ (inSymbol .symbolSilence 7).dec.rem ∧
    (inSymbol .symbolSilence 7).dec.pos + 1 < edgeCap ∧ (inSymbol .symbolSilence 7).dec.bits ≠ 0 ∧
    (delta (inSymbol .symbolSilence 7) 0).toNat = 7 ∧ (delta (inSymbol .symbolSilence 13) 0).toNat = 13 ∧
    (delta (inSymbol .symbolPulse 22) 0).toNat = 22 ∧ (delta (inSymbol .symbolPulse 38) 0).toNat = 38 := by decide

/-! The decoder's run. -/

theorem test_witness_DecRunIsTheDriveLoop :
    (captured [0, 160]).txProc = .idle ∧ (67 : BitVec 32).toNat ≤ edgeCap ∧ (1 : BitVec 32).toNat ≤ 1 := by decide

theorem test_witness_DecRunDependsOnBufferOnly :
    (captured [0, 160, 200]).txProc = .idle ∧ (captured [0, 160, 300]).txProc = .idle ∧
    (2 : BitVec 32).toNat ≤ edgeCap ∧ (captured [0, 160, 200]).cfg = (captured [0, 160, 300]).cfg ∧
    ∀ i, i < (2 : BitVec 32).toNat → edgeAt (captured [0, 160, 200]) i = edgeAt (captured [0, 160, 300]) i := by decide

theorem test_witness_DecodedFrameShapes : State.reset.txProc = .idle ∧ (67 : BitVec 32).toNat ≤ edgeCap := by decide

/-- The 67 timestamps of V-DEC-7 are those that the transmitter's waveform gives. -/
theorem test_witness_TransmittedFrameDecodesToItsCode :
    paramsOk (captured e20DF10EF).cfg = true ∧ (captured e20DF10EF).txProc = .idle ∧
    ∀ j, j < edgeCap → edgeAt (captured e20DF10EF) j = edgeStamp (captured e20DF10EF).cfg 0x20DF10EF 0 j := by
  decide +kernel

/-- V-DEC-11 at the window's edges. -/
theorem test_witness_RepetitionGapDecodesAsRepetition :
    (captured [0, 120, 150]).txProc = .idle ∧ 3 ≤ (3 : BitVec 32).toNat ∧ (3 : BitVec 32).toNat ≤ edgeCap ∧
    120 ≤ (delta (captured [0, 120, 150]) 0).toNat ∧ (delta (captured [0, 120, 150]) 0).toNat ≤ 200 ∧
    ¬(60 ≤ (delta (captured [0, 120, 150]) 1).toNat ∧ (delta (captured [0, 120, 150]) 1).toNat ≤ 100) ∧
    30 ≤ (delta (captured [0, 120, 150]) 1).toNat ∧ (delta (captured [0, 120, 150]) 1).toNat ≤ 50 := by decide

theorem test_witness_NoLeadDecodesAsError :
    (captured [0, 119, 300]).txProc = .idle ∧ (3 : BitVec 32).toNat ≤ edgeCap ∧
    ∀ j, 2 * j + 1 < (3 : BitVec 32).toNat →
      ¬((captured [0, 119, 300]).cfg.wLeadOn.lo ≤ (delta (captured [0, 119, 300]) (2 * j)).toNat ∧
        (delta (captured [0, 119, 300]) (2 * j)).toNat ≤ (captured [0, 119, 300]).cfg.wLeadOn.hi) := by
  refine ⟨rfl, by decide, fun j hj => ?_⟩
  obtain rfl : j = 0 := by simp at hj; omega
  decide

/-! The framer. -/

theorem test_witness_FramerArms : off2.txProc = .idle ∧ off2.rxState = .off ∧ off2.rxEnabled = true := by decide

/-- V-RXF-5. -/
theorem test_witness_FramerDisarms :
    (framing .idle false 0 0 [1, 2] true true 0).txProc = .idle ∧
    (framing .idle false 0 0 [1, 2] true true 0).rxState = .idle ∧
    (framing .idle false 0 0 [1, 2] true true 0).rxEnabled = false := by decide

/-- V-RXF-4, V-RXF-6, V-RXF-11. -/
theorem test_witness_FramerNotesNewEdges :
    (∀ q en, (framing q en 3 0 [1, 2, 3, 4] true true 500).txProc = .idle ∧
      BitVec.ofNat 32 (framing q en 3 0 [1, 2, 3, 4] true true 500).ecount ≠
        (framing q en 3 0 [1, 2, 3, 4] true true 500).rxLastCount ∧
      (framing q en 3 0 [1, 2, 3, 4] true true 500).rxState = q ∧
      (framing q en 3 0 [1, 2, 3, 4] true true 500).rxEnabled = en) :=
  fun q en => ⟨rfl, by simp [framing, captured], rfl, rfl⟩

theorem test_witness_FramerAbandonsFrame :
    (framing .wait false 3 0 [1] true true 500).txProc = .idle ∧
    (framing .wait false 3 0 [1] true true 500).rxState = .wait ∧
    (framing .wait false 3 0 [1] true true 500).rxEnabled = false := by decide

/-- V-RXF-8. -/
def late : State := framing .wait true 4 1000 [0, 160, 200, 210] true true 1021

theorem test_witness_FramerEndsFrame :
    late.txProc = .idle ∧ late.rxState = .wait ∧ late.rxEnabled = true ∧
    BitVec.ofNat 32 late.ecount = late.rxLastCount ∧ late.rxLastCount.toNat ≤ edgeCap ∧
    late.cfg.rxTimeoutMs < (late.ms - late.rxLastTime).toNat := by decide

/-- One state for each clause: V-RXF-2, 1, 5, 4, 3, 11, 12, 8, 7. -/
theorem test_witness_RxFireTakesFirstRow :
    (off2.txProc = .idle ∧ off2.rxState = .off ∧ off2.rxEnabled = true) ∧
    (State.reset.rxState = .off ∧ State.reset.rxEnabled = false) ∧
    ((framing .idle false 0 0 [1] true true 0).rxState = .idle ∧
      (framing .idle false 0 0 [1] true true 0).rxEnabled = false) ∧
    ((framing .idle true 0 0 [1] true true 0).rxEnabled = true ∧
      BitVec.ofNat 32 (framing .idle true 0 0 [1] true true 0).ecount ≠
        (framing .idle true 0 0 [1] true true 0).rxLastCount) ∧
    ¬(BitVec.ofNat 32 (framing .idle true 0 0 [] true true 0).ecount ≠
        (framing .idle true 0 0 [] true true 0).rxLastCount) ∧
    late.cfg.rxTimeoutMs < (late.ms - late.rxLastTime).toNat ∧
    ¬(late.cfg.rxTimeoutMs < (({ late with ms := 1020 } : State).ms - late.rxLastTime).toNat) := by decide

theorem test_witness_RxFireCompletes : State.reset.txProc = .idle ∧ Structural State.reset :=
  ⟨rfl, test_reset_structural⟩

/-- V-RXF-13 with the timeout exceeded. -/
def saturated : State := { framing .wait true 67 230 [] true true 251 with ecount := 67 }

theorem test_witness_SaturatedEdgesAreInvisible :
    saturated.txProc = .idle ∧ saturated.ecount = edgeCap ∧ saturated.rxLastCount = 67 ∧ saturated.rxState = .wait ∧
    saturated.rxEnabled = true ∧ saturated.cfg.rxTimeoutMs < (saturated.ms - saturated.rxLastTime).toNat := by decide

/-! The transmitter. -/

theorem test_witness_TxFireEmitsTheWaveform :
    paramsOk ({ State.reset with txCode := 0x80000001 } : State).cfg = true ∧
    ({ State.reset with txCode := 0x80000001 } : State).txProc = .idle ∧
    ({ State.reset with txCode := 0x80000001 } : State).txCode = 0x80000001 ∧ (0x80000001 : BitVec 32) ≠ 0 ∧
    0 < dur defaultParams 0x80000001 ∧ 4489 < dur defaultParams 0x80000001 := by decide

theorem test_witness_IdleFireAndDestroyDoNothing : State.reset.txProc = .idle ∧ State.reset.txCode = 0 := by decide

theorem test_witness_TxEncodeEmitsTheWaveform :
    paramsOk State.reset.cfg = true ∧ State.reset.txProc = .idle ∧ 4489 < dur State.reset.cfg 0x80000001 := by decide

/-- V-TX-7; and a count of zero, a count of `2 ^ TICK_W`. -/
theorem test_witness_TxBurstTiming :
    ({ State.reset with tick := 65530, tickRun := true } : State).txProc = .idle ∧
    ((10 : BitVec 32) ≠ 0 ∧ (30 : BitVec 32) ≠ 0 ∧ (10 : BitVec 32).toNat < tickModulus State.reset.cfg.tickW ∧
      (30 : BitVec 32).toNat < tickModulus State.reset.cfg.tickW) ∧
    ({ State.reset with tick := 65530, tickRun := true } : State).tickRun = true ∧
    ({ State.reset with tick := 65530, tickRun := true } : State).tick.toNat < tickModulus .w16 ∧ 39 < 10 + 30 ∧
    ¬((0 : BitVec 32) ≠ 0) ∧ ¬((65536 : BitVec 32).toNat < tickModulus State.reset.cfg.tickW) := by decide

theorem test_witness_WaveformShape : 67 < 68 ∧ 31 < 32 := by decide

theorem test_witness_WireSymbols :
    State.reset.txProc = .idle ∧
    (Instr.epilogue, State.reset.cfg.txEpilogueOn, State.reset.cfg.txEpilogueOff) ∈
      [(Instr.epilogue, State.reset.cfg.txEpilogueOn, State.reset.cfg.txEpilogueOff)] := ⟨rfl, by simp⟩

theorem test_witness_RepeatFrameArrives : paramsOk State.reset.cfg = true := by decide

/-! Events, primitives, reset, invariants. -/

theorem test_witness_ClocksCountModulo :
    ({ State.reset with tick := 65535, tickRun := true } : State).txProc = .idle ∧
    ({ State.reset with tick := 65535, tickRun := true } : State).tick.toNat < tickModulus .w16 ∧
    ({ State.reset with tick := 65535, tickRun := true } : State).tickRun = true ∧ State.reset.tickRun = false := by
  decide

/-- The first and the last free entry. -/
theorem test_witness_EdgeStoresTimestamp :
    (∀ n ∈ [0, 66], ({ State.reset with capEn := true, ecount := n } : State).capEn = true ∧
      ({ State.reset with capEn := true, ecount := n } : State).ecount < edgeCap) ∧ 1 ≠ State.reset.ecount := by decide

theorem test_witness_EdgeFullChangesNothing :
    (({ State.reset with capEn := true, ecount := 67 } : State).ecount = edgeCap) ∧ State.reset.capEn = false := by
  decide

theorem test_witness_ReadingPrimitives : Structural State.reset := test_reset_structural

theorem test_witness_ResetEventValues :
    paramsOk ({ sending with inbox := [.reset] } : State).cfg = true ∧
    ({ sending with inbox := [.reset] } : State).inbox = .reset :: [] := by decide

/-- A step from reset with an edge waiting. -/
theorem test_witness_StepKeepsStructural :
    Structural { State.reset with inbox := [.op (encode .edge)] } ∧
    ∃ t, step { State.reset with inbox := [.op (encode .edge)] } = .next t :=
  ⟨structural_congr test_reset_structural rfl rfl rfl rfl rfl rfl test_reset_structural.dec_ok
    (fun h => absurd h (by decide)) (fun h => absurd h (by decide)) rfl rfl, _, rfl⟩

theorem test_witness_NoStepFaults : Structural State.reset := test_reset_structural

/-- The reset state, with an agent's step waiting, has the invariant of the block, and it steps. -/
theorem test_witness_AgentStepKeepsBlockInv :
    BlockInv { State.reset with inbox := [.op (encode .edge)] } ∧
    ∃ t, step { State.reset with inbox := [.op (encode .edge)] } = .next t :=
  ⟨⟨test_witness_StepKeepsStructural.1, by decide, fun _ => rfl, by decide, by decide, fun _ => rfl, by decide,
    fun _ => rfl, .inl rfl⟩, test_witness_StepKeepsStructural.2⟩

/-- An enabled receiver right after reset meets the hypotheses of `FramerArms`, the invariant's too. -/
theorem test_witness_FramerArms_invariant :
    BlockInv { State.reset with rxEnabled := true } ∧
    ({ State.reset with rxEnabled := true } : State).rxState = .off ∧
    ({ State.reset with rxEnabled := true } : State).txProc = .idle :=
  ⟨⟨structural_congr test_reset_structural rfl rfl rfl rfl rfl rfl test_reset_structural.dec_ok
    (fun h => absurd h (by decide)) (fun h => absurd h (by decide)) rfl rfl, by decide, fun _ => rfl, by decide,
    by decide, fun _ => rfl, by decide, fun _ => rfl, .inl rfl⟩, rfl, rfl⟩

theorem test_witness_ResetHasBlockInv : (65535 : BitVec 32).toNat < tickModulus defaultParams.tickW := by decide

theorem test_witness_ParametersNeverChange :
    ∃ t, step { State.reset with inbox := [.op (encode .edge)] } = .next t := test_witness_StepKeepsStructural.2

theorem test_witness_RegistersHaveOnlyTheirWriters :
    exec (.rxSeten true) State.reset = .next (after (.rxSeten true) State.reset) ∧
    (after (.rxSeten true) State.reset).rxEnabled ≠ State.reset.rxEnabled := ⟨rfl, by decide⟩

/-- R273 and its example: 1 ms is 17.78 ticks of 56.25 µs, so 17 and 18 TICK events are within one event of it, and
16 and 19 are not; 1.9 ms without an MSTICK is not, either. -/
theorem test_env_time_counts :
    EnvTime defaultParams 1000000 17 1 ∧ EnvTime defaultParams 1000000 18 1 ∧
    ¬EnvTime defaultParams 1000000 16 1 ∧ ¬EnvTime defaultParams 1000000 19 1 ∧
    ¬EnvTime defaultParams 1900000 33 0 ∧ EnvTime defaultParams 9000000 160 9 := by
  simp [EnvTime, withinOneEvent, defaultParams]

end Sys2Proof.Tests
end

section
/-! The parameters under a step (R38): what each shared operation leaves of them, then every instruction, then
the fetch and the RESET event. -/

namespace Sys2Proof.Machine

/-! ### The shared operations keep the parameters -/

theorem next_cfg {s u t : State} (h : (.next u : Host.Outcome State Fault Refusal) = .next t)
    (hu : u.cfg = s.cfg) : t.cfg = s.cfg := by
  cases h; exact hu

theorem hostSide_next_cfg {s u t : State} (h : hostSide s (.next u) = .next t) (hu : u.cfg = s.cfg) :
    t.cfg = s.cfg := next_cfg (hostSide_next h).2 hu

theorem decTransition_cfg {r : DecRow} {s t : State} (h : decTransition r s = .next t) : t.cfg = s.cfg := by
  obtain ⟨-, rfl | ⟨-, -, rfl⟩⟩ := decTransition_next h <;> rfl

theorem fireDecoder_cfg {s t : State} (h : fireDecoder s = .next t) : t.cfg = s.cfg := by
  obtain ⟨-, rfl | ⟨-, rfl⟩⟩ := fireDecoder_next h <;> rfl

theorem execDecRun_cfg {n : BitVec 32} {s t : State} (h : execDecRun n s = .next t) : t.cfg = s.cfg := by
  obtain ⟨-, -, rfl⟩ := execDecRun_next h; rfl

theorem framerFire_cfg (s : State) : (framerFsm.fire s).cfg = s.cfg := (framerFire_frame s).1

theorem fireFramer_cfg {s t : State} (h : fireFramer s = .next t) : t.cfg = s.cfg := by
  obtain ⟨-, -, rfl⟩ := fireFramer_next h; exact framerFire_cfg s

theorem framerTransition_cfg {r : RxRow} {s t : State} (h : framerTransition r s = .next t) :
    t.cfg = s.cfg := by
  obtain ⟨-, rfl | ⟨-, -, rfl⟩⟩ := framerTransition_next h
  · rfl
  · exact framerFire_cfg s

theorem txFire_cfg (s : State) : (txFsm.fire s).cfg = s.cfg := by
  rw [txFire_eq]; split
  · rfl
  · exact beginEncode_cfg _ s

theorem fireTransmitter_cfg {s t : State} (h : fireTransmitter s = .next t) : t.cfg = s.cfg := by
  obtain ⟨-, rfl⟩ := fireTransmitter_next h; exact txFire_cfg s

theorem execX1_cfg {s t : State} (h : execX1 s = .next t) : t.cfg = s.cfg := by
  obtain ⟨-, rfl⟩ := execX1_next h; exact txFire_cfg s

theorem execTxSetcode_cfg {c : BitVec 32} {s t : State} (h : execTxSetcode c s = .next t) : t.cfg = s.cfg :=
  hostSide_next_cfg h (by split <;> rfl)

theorem execTxBurst_cfg {on off : BitVec 32} {s t : State} (h : execTxBurst on off s = .next t) :
    t.cfg = s.cfg := by
  obtain ⟨-, -, rfl⟩ := execTxBurst_next h; exact beginProc_cfg _ s

theorem wireBurst_cfg {side : WireSide} {on off : Nat} {s t : State} (h : wireBurst side on off s = .next t) :
    t.cfg = s.cfg := by
  obtain ⟨-, -, rfl⟩ | ⟨-, rfl⟩ := wireBurst_next h
  · exact beginProc_cfg _ s
  · exact receiveBurst_cfg on off s

theorem initFsm_cfg (m : FsmId) (s : State) : (initFsm m s).cfg = s.cfg := by
  rw [initFsm_eq]; cases m <;> rfl

theorem execFsmInit_cfg {m : FsmId} {a : TableArg} {s t : State} (h : execFsmInit m a s = .next t) :
    t.cfg = s.cfg := by
  cases a with
  | own => exact hostSide_next_cfg h (initFsm_cfg m s)
  | empty => cases (hostSide_next h).2

theorem execFsmFire_cfg {m : FsmId} {s t : State} (h : execFsmFire m s = .next t) : t.cfg = s.cfg := by
  cases m with
  | framer => exact fireFramer_cfg h
  | decoder => exact fireDecoder_cfg h
  | transmitter => exact fireTransmitter_cfg h

/-! ### Every instruction keeps the parameters -/

theorem exec_cfg {i : Instr} {s t : State} (h : exec i s = .next t) : t.cfg = s.cfg := by
  cases i with
  | t1 | t2 | t3 | t4 | t5 | t6 | t7 | t8 | t9 | t10 | t11 => exact decTransition_cfg h
  | f1 | f2 | f3 | f4 | f5 | f6 => exact framerTransition_cfg h
  | rxFire => exact fireFramer_cfg h
  | txFire => exact fireTransmitter_cfg h
  | x1 => exact execX1_cfg h
  | decRun n => exact execDecRun_cfg h
  | rxSeten | rxGetcode | rxGetrep | rxGeterr | rxResetcode | rxIsactive | txIsactive | txEncode | fsmDestroy =>
    exact hostSide_next_cfg h rfl
  | txSetcode c => exact execTxSetcode_cfg h
  | txBurst on off => exact execTxBurst_cfg h
  | prologue | sym0 | sym1 | epilogue => exact wireBurst_cfg h
  | fsmInit m a => exact execFsmInit_cfg h
  | fsmFire m => exact execFsmFire_cfg h
  | tick => exact next_cfg h (tickEvent_cfg s)
  | edge => exact next_cfg h (edgeEvent_cfg s)
  | mstick | repeatFrame | nowMillis | currentTick | startTimer | stopTimer | setCarrier | getEdgeCount
  | getEdgeBuffer | clearEdgeBuffer | enableCapture => exact next_cfg h rfl

/-! ### A step keeps the parameters -/

theorem fetch_cfg (s : State) : (fetch s).2.cfg = s.cfg := by rw [fetch_frame]

theorem step_cfg {s t : State} (h : step s = .next t) : t.cfg = s.cfg := by
  rw [← fetch_cfg s]
  obtain ⟨-, ⟨-, rfl⟩ | ⟨_, _, -, -, hexec⟩⟩ := step_next h
  · exact (resetEvent_keeps _).1
  · exact exec_cfg hexec

/-- Settles O59: whatever the fetched input is, the RESET event or an operation, its step keeps the parameters. -/
theorem parametersNeverChange : Obligations.ParametersNeverChange := fun _ _ => step_cfg

end Sys2Proof.Machine
end

section
/-! A capture that finds the buffer full, or the capture disabled (R62, R263). -/

namespace Sys2Proof.Machine

/-- The meaning of `EDGE` is the capture, and it always answers a next state. -/
theorem exec_edge (s : State) : exec .edge s = .next (edgeEvent s) := rfl

/-- A capture that is disabled, or has no room, is the identity on the state: the first case of
`edgeEvent_cases` needs both the enable and the room. -/
theorem edgeEvent_eq_self {s : State} (h : s.capEn = false ∨ edgeCap ≤ s.ecount) : edgeEvent s = s := by
  obtain ⟨hopen, hroom, -⟩ | ⟨-, hsame⟩ := edgeEvent_cases s
  · rcases h with hclosed | hfull
    · simp [hclosed] at hopen
    · omega
  · exact hsame

/-- Settles O49: a count of exactly `EDGE_CAP` leaves no room, so either hypothesis makes the capture the
identity. -/
theorem edgeFullChangesNothing : Obligations.EdgeFullChangesNothing := by
  intro s h
  have hsame : edgeEvent s = s := edgeEvent_eq_self (h.symm.imp_right fun hfull => hfull.ge)
  rw [exec_edge, hsame]

end Sys2Proof.Machine
end

section
/-! Durations across a wrap of the counter (R100), and a command taken apart into its wire bits and assembled
again (R101). -/

namespace Sys2Proof.Machine

/-! ### Durations -/

/-- The 32-bit difference agrees with the `2 ^ TICK_W` one because `2 ^ TICK_W` divides `2 ^ 32`; the modulus is
added first so that the subtraction of natural numbers does not cut off. -/
theorem tickSub_toNat (w : TickWidth) {a : Tick} (b : Tick) (ha : a.toNat < tickModulus w) :
    (tickSub w b a).toNat = (b.toNat + tickModulus w - a.toNat) % tickModulus w := by
  rw [tickSub, trunc_toNat, BitVec.toNat_sub, Nat.mod_mod_of_dvd _ (tickModulus_dvd w)]
  cases w <;> simp only [tickModulus] at * <;> omega

/-- Two counter values `d` ticks apart are the values `tickOf` gives at two times `d` ticks apart, and those
subtract to `d` by `tickSub_tickOf`. -/
theorem tickSub_of_later {w : TickWidth} {a b : Tick} {d : Nat} (ha : a.toNat < tickModulus w)
    (hd : d < tickModulus w) (hb : b.toNat = (a.toNat + d) % tickModulus w) : (tickSub w b a).toNat = d := by
  have hlater : b = tickOf w (a.toNat + d) := BitVec.eq_of_toNat_eq (hb.trans (tickOf_toNat w _).symm)
  have hsub := tickSub_tickOf w a.toNat d hd
  rwa [← hlater, tickOf_of_lt w a ha] at hsub

/-- Settles O8: `delta` is the modular subtraction of its two edges by definition, and the subtraction is
`tickSub_toNat` and `tickSub_of_later`. -/
theorem durationIsModularSubtraction : Obligations.DurationIsModularSubtraction :=
  ⟨fun _ _ => rfl, fun w _ b ha _ => ⟨tickSub_toNat w b ha, fun _ hd hb => tickSub_of_later ha hd hb⟩⟩

/-! ### Command assembly -/

/-- Appending the next lower bit of `c` to its upper bits undoes one place of the shift. -/
theorem appendBit_ushiftRight (c : BitVec 32) (n : Nat) :
    appendBit (c >>> (n + 1)) (c.getLsbD n) = c >>> n := by
  apply BitVec.eq_of_toNat_eq
  have hlast : (c.getLsbD n).toNat = (c >>> n).toNat % 2 := by
    rw [BitVec.getLsbD, Nat.toNat_testBit, BitVec.toNat_ushiftRight, Nat.shiftRight_eq_div_pow]
  have hupper : (c >>> (n + 1)).toNat = (c >>> n).toNat / 2 := by
    simp only [BitVec.toNat_ushiftRight, Nat.shiftRight_succ]
  rw [appendBit_toNat, hlast, hupper, Nat.div_add_mod, Nat.mod_eq_of_lt (c >>> n).isLt]

/-- The invariant of the assembly: the first `k` wire bits of a command are its `k` uppermost bits. -/
theorem assemble_wireBits (c : BitVec 32) {k : Nat} (hk : k ≤ 32) :
    (List.range k).foldl (fun code i => appendBit code (wireBit c i)) 0 = c >>> (32 - k) := by
  induction k with
  | zero => exact (BitVec.ushiftRight_eq_zero (Nat.le_refl 32)).symm
  | succ k ih =>
    have hshift : 32 - k = 31 - k + 1 := by omega
    calc (List.range (k + 1)).foldl (fun code i => appendBit code (wireBit c i)) 0
        = appendBit (c >>> (32 - k)) (wireBit c k) := by
          rw [List.range_succ, List.foldl_append, ih (by omega)]; rfl
      _ = appendBit (c >>> (31 - k + 1)) (c.getLsbD (31 - k)) := by rw [hshift, wireBit]
      _ = c >>> (31 - k) := appendBit_ushiftRight c (31 - k)
      _ = c >>> (32 - (k + 1)) := by congr 1; omega

/-- Settles O9: the arithmetic of an append is `appendBit_toNat`, the order of the bits is `wireBit` itself, and
all 32 wire bits are the command shifted by no place. -/
theorem commandAssembly : Obligations.CommandAssembly := by
  refine ⟨fun code b => ?_, fun _ _ _ => rfl, fun c => ?_⟩
  · rw [appendBit_toNat]; cases b <;> rfl
  · rw [assemble_wireBits c (Nat.le_refl 32), Nat.sub_self, BitVec.ushiftRight_zero]

end Sys2Proof.Machine
end

section
/-! Which row the engine selects (R131): the first one in table order that matches, or none where none does. -/

namespace Sys2Proof.Machine

variable {ρ q σ : Type} [DecidableEq q]

/-- A row that does not match is one of another state, or one whose guard is false. -/
theorem Fsm.not_matches_iff (m : Fsm ρ q σ) (r : ρ) (x : σ) :
    (decide (m.src r = m.current x) && m.guard r x) = false ↔ m.src r ≠ m.current x ∨ m.guard r x = false := by
  rw [Bool.and_eq_false_iff, decide_eq_false_iff_not]

/-- The selected row splits the table: it matches, and no row before it does. -/
theorem Fsm.select_eq_some_iff {m : Fsm ρ q σ} {x : σ} {r : ρ} :
    m.select x = some r ↔ (m.src r = m.current x ∧ m.guard r x = true) ∧ ∃ pre post, m.rows = pre ++ r :: post ∧
      ∀ r' ∈ pre, m.src r' ≠ m.current x ∨ m.guard r' x = false := by
  simp only [Fsm.select, List.find?_eq_some_iff_append, Bool.and_eq_true, decide_eq_true_eq, Bool.not_eq_true',
    Fsm.not_matches_iff]

/-- No row is selected exactly where none of the table matches. -/
theorem Fsm.select_eq_none_iff {m : Fsm ρ q σ} {x : σ} :
    m.select x = none ↔ ∀ r ∈ m.rows, m.src r ≠ m.current x ∨ m.guard r x = false := by
  simp only [Fsm.select, List.find?_eq_none, Bool.not_eq_true, Fsm.not_matches_iff]

/-- Settles O15: a fire takes the selected row or nothing, by `Fsm.fire_cases`, and the selected row is the first
that matches. -/
theorem firstTrueGuardFires : Obligations.FirstTrueGuardFires := by
  intro ρ q σ _ m x
  obtain ⟨r, hsel, hfire⟩ | ⟨hnone, hsame⟩ := m.fire_cases x
  · obtain ⟨⟨hsrc, hguard⟩, pre, post, hrows, hpre⟩ := Fsm.select_eq_some_iff.mp hsel
    exact .inl ⟨pre, post, r, hrows, hsrc, hguard, hpre, hfire⟩
  · exact .inr ⟨Fsm.select_eq_none_iff.mp hnone, hsame⟩

end Sys2Proof.Machine
end

section
/-! The decoder's rows issued by themselves (R157 to R168; log entry 12): in a state where a fire is allowed, the
row that the table selects does what the fire does, and every other row does nothing. -/

namespace Sys2Proof.Machine

/-! ### A row as an instruction -/

/-- The instruction of a row of the decoder table (R113, class DEC_T). -/
def DecRow.instr : DecRow → Instr
  | .t1 => .t1
  | .t2 => .t2
  | .t3 => .t3
  | .t4 => .t4
  | .t5 => .t5
  | .t6 => .t6
  | .t7 => .t7
  | .t8 => .t8
  | .t9 => .t9
  | .t10 => .t10
  | .t11 => .t11

theorem exec_decRow (r : DecRow) (s : State) : exec r.instr s = decTransition r s := by cases r <;> rfl

theorem decode_encode_decRow (r : DecRow) : decode (encode r.instr) = .ok r.instr := by cases r <;> rfl

/-! ### The duration a fire measures -/

/-- The window test of a guard, in the duration between the current and the next edge (R153, R154). -/
theorem inW_measured_iff (s : State) (w : Window) :
    inW (measured s.cfg (edgeAt s) s.dec) w = true ↔
      w.lo ≤ (delta s s.dec.pos).toNat ∧ (delta s s.dec.pos).toNat ≤ w.hi := inW_iff _ w

/-- T6 reads no entry: it does not look at the duration (R163). -/
theorem decOutOfRange_of_bits_eq_zero {d : Dec} (hstate : d.state = .symbolSilence) (hbits : d.bits = 0) :
    decOutOfRange d = false := by
  simp [decOutOfRange, hstate, hbits]

/-! ### The selected row and the others -/

/-- Where two edges remain and none is read past the buffer, a row by itself is the engine's attempt at it. The
row of another state is no exception: the engine does not select it. -/
theorem exec_decRow_eq_tryRow {s : State} (hproc : s.txProc = .idle) (h2 : 2 ≤ s.dec.rem)
    (hrange : decOutOfRange s.dec = false) (r : DecRow) :
    exec r.instr s = .next { s with dec := (decFsm s.cfg (edgeAt s)).tryRow r s.dec } := by
  rw [exec_decRow, decTransition, hostSide_idle hproc]
  by_cases hsrc : (decFsm s.cfg (edgeAt s)).src r = s.dec.state
  · rw [if_neg (not_or.mpr ⟨Nat.not_lt.mpr h2, not_not_intro hsrc⟩), hrange]; rfl
  · obtain ⟨hsel, -⟩ | ⟨-, hsame⟩ := (decFsm s.cfg (edgeAt s)).tryRow_cases r s.dec
    · exact absurd (Fsm.select_spec hsel).2.1 hsrc
    · rw [if_pos (.inr hsrc), hsame]

/-- The selected row does what a fire of the decoder does, and every other row nothing (R131). -/
theorem exec_decRow_of_select {s : State} {r : DecRow} {d : Dec} (hproc : s.txProc = .idle)
    (h2 : 2 ≤ s.dec.rem) (hrange : decOutOfRange s.dec = false)
    (hsel : (decFsm s.cfg (edgeAt s)).select s.dec = some r)
    (hfire : (decFsm s.cfg (edgeAt s)).fire s.dec = d) :
    exec r.instr s = .next { s with dec := d } ∧ ∀ q, q ≠ r → exec q.instr s = .next s := by
  refine ⟨?_, fun q hq => ?_⟩ <;> rw [exec_decRow_eq_tryRow hproc h2 hrange]
  · rw [Fsm.tryRow, if_pos hsel, ← Fsm.fire_of_select hsel, hfire]
  · rw [Fsm.tryRow, if_neg fun h => hq (Option.some.inj (h.symm.trans hsel))]

/-- `FSM.FIRE` on the decoder is the engine's fire (R132), under the same conditions as a row. -/
theorem exec_fsmFire_decoder {s : State} (hproc : s.txProc = .idle) (h2 : 2 ≤ s.dec.rem)
    (hrange : decOutOfRange s.dec = false) :
    exec (.fsmFire .decoder) s = .next { s with dec := (decFsm s.cfg (edgeAt s)).fire s.dec } := by
  have hexec : exec (.fsmFire .decoder) s = fireDecoder s := rfl
  rw [hexec, fireDecoder, hostSide_idle hproc, if_neg (Nat.not_lt.mpr h2), hrange]; rfl

/-! ### The statements -/

/-- Settles O19: the table selects T1 where its window test holds and T2, whose guard is `true`, where it fails. -/
theorem idleRowsFollowLeadOnWindow : Obligations.IdleRowsFollowLeadOnWindow := by
  refine ⟨⟨decode_encode_decRow .t1, decode_encode_decRow .t2⟩, fun s hproc hstate h2 hpos => ?_⟩
  have hrange := decOutOfRange_of_lt hpos
  have hsel := decSelect_idle s.cfg (edgeAt s) s.dec hstate
  have hfire := decFire_idle s.cfg (edgeAt s) s.dec hstate
  refine ⟨fun hlead => ?_, fun hlead => ?_⟩ <;> rw [← inW_measured_iff] at hlead
  · rw [if_pos hlead] at hsel hfire
    obtain ⟨htaken, hothers⟩ := exec_decRow_of_select hproc h2 hrange hsel hfire
    exact ⟨htaken, hothers .t2 (by decide)⟩
  · rw [if_neg hlead] at hsel hfire
    rw [← hstate] at hfire
    obtain ⟨htaken, hothers⟩ := exec_decRow_of_select hproc h2 hrange hsel hfire
    exact ⟨hothers .t1 (by decide), htaken⟩

/-- Settles O20: in table order, T3's window is tested first and T5 is selected where T3's and T4's both fail; the
code is 0 by the invariant's clause about `INIT`. -/
theorem initRowsAcceptPrologueOrNoise : Obligations.InitRowsAcceptPrologueOrNoise := by
  refine ⟨⟨decode_encode_decRow .t3, decode_encode_decRow .t5⟩, fun s hproc hstate h2 hpos => ?_⟩
  have hrange := decOutOfRange_of_lt hpos
  have hsel := decSelect_init s.cfg (edgeAt s) s.dec hstate
  have hfire := decFire_init s.cfg (edgeAt s) s.dec hstate
  refine ⟨fun hlead => ?_, fun hlead hrep => ?_, fun hs => hs.dec_ok.init_code hstate⟩ <;>
    rw [← inW_measured_iff] at hlead
  · rw [if_pos hlead] at hsel hfire
    obtain ⟨htaken, hothers⟩ := exec_decRow_of_select hproc h2 hrange hsel hfire
    exact ⟨htaken, hothers .t4 (by decide), hothers .t5 (by decide)⟩
  · rw [← inW_measured_iff] at hrep
    rw [if_neg hlead, if_neg hrep] at hsel hfire
    obtain ⟨htaken, hothers⟩ := exec_decRow_of_select hproc h2 hrange hsel hfire
    exact ⟨htaken, hothers .t3 (by decide), hothers .t4 (by decide)⟩

/-- In `SYMBOL_SILENCE` with no bit remaining T6 by itself and a fire do the same, and no edge remains after it
(R163); the position is free, since T6 reads no entry. -/
theorem exec_t6_endsRun {s : State} (hproc : s.txProc = .idle) (hstate : s.dec.state = .symbolSilence)
    (hbits : s.dec.bits = 0) (h2 : 2 ≤ s.dec.rem) :
    ∃ u, exec .t6 s = .next u ∧ exec (.fsmFire .decoder) s = .next u ∧ u.dec.rem = 0 := by
  have hrange := decOutOfRange_of_bits_eq_zero hstate hbits
  have hsel := decSelect_silence s.cfg (edgeAt s) s.dec hstate
  have hfire := decFire_silence s.cfg (edgeAt s) s.dec hstate
  rw [if_pos hbits] at hsel hfire
  exact ⟨_, (exec_decRow_of_select hproc h2 hrange hsel rfl).1, exec_fsmFire_decoder hproc h2 hrange,
    congrArg Dec.rem hfire⟩

/-- Settles O21: T4 is selected where only its window holds; it leaves `SYMBOL_SILENCE` with no bit remaining, where
`exec_t6_endsRun` ends the run. -/
theorem initRowAcceptsRepetition : Obligations.InitRowAcceptsRepetition := by
  refine ⟨decode_encode_decRow .t4, fun s hproc hstate h2 hpos hlead hlo hhi => ?_⟩
  have hrep := (inW_measured_iff s s.cfg.wRepOff).mpr ⟨hlo, hhi⟩
  have hsel := decSelect_init s.cfg (edgeAt s) s.dec hstate
  have hfire := decFire_init s.cfg (edgeAt s) s.dec hstate
  rw [← inW_measured_iff] at hlead
  rw [if_neg hlead, if_pos hrep] at hsel hfire
  obtain ⟨htaken, hothers⟩ := exec_decRow_of_select hproc h2 (decOutOfRange_of_lt hpos) hsel hfire
  exact ⟨_, htaken, rfl, hothers .t3 (by decide), hothers .t5 (by decide),
    fun hs => hs.dec_ok.init_code hstate, exec_t6_endsRun hproc rfl rfl⟩

/-- Settles O22: with bits remaining T6's guard is false, and T7's window test comes before T8. -/
theorem silenceRowAcceptsBitOn : Obligations.SilenceRowAcceptsBitOn := by
  refine ⟨decode_encode_decRow .t7, fun s hproc hstate h2 hpos hbits hlo hhi => ?_⟩
  have hon := (inW_measured_iff s s.cfg.wBitOn).mpr ⟨hlo, hhi⟩
  have hsel := decSelect_silence s.cfg (edgeAt s) s.dec hstate
  have hfire := decFire_silence s.cfg (edgeAt s) s.dec hstate
  rw [if_neg hbits, if_pos hon] at hsel hfire
  obtain ⟨htaken, hothers⟩ := exec_decRow_of_select hproc h2 (decOutOfRange_of_lt hpos) hsel hfire
  exact ⟨htaken, hothers .t6 (by decide), hothers .t8 (by decide)⟩

/-- An appended bit as arithmetic: the word of twice the code plus the bit (R101). -/
theorem appendBit_eq_ofNat (code : BitVec 32) (b : Bool) :
    appendBit code b = BitVec.ofNat 32 (2 * code.toNat + b.toNat) :=
  BitVec.eq_of_toNat_eq ((appendBit_toNat code b).trans (BitVec.toNat_ofNat _ _).symm)

/-- Settles O24: T9's window is tested before T10's, so an interval in both appends a 0; what a row appends is
`appendBit_eq_ofNat`, and a bit remains by the invariant's clause about `SYMBOL_PULSE`. -/
theorem pulseRowsAppendBits : Obligations.PulseRowsAppendBits := by
  refine ⟨⟨decode_encode_decRow .t9, decode_encode_decRow .t10⟩, fun s hproc hstate h2 hpos => ?_⟩
  have hrange := decOutOfRange_of_lt hpos
  have hsel := decSelect_pulse s.cfg (edgeAt s) s.dec hstate
  have hfire := decFire_pulse s.cfg (edgeAt s) s.dec hstate
  refine ⟨fun hzero => ?_, fun hzero hone => ?_, fun hs => hs.dec_ok.pulse_bits hstate⟩ <;>
    rw [← inW_measured_iff] at hzero
  · rw [if_pos hzero] at hsel hfire
    rw [appendBit_eq_ofNat] at hfire
    obtain ⟨htaken, hothers⟩ := exec_decRow_of_select hproc h2 hrange hsel hfire
    exact ⟨htaken, hothers .t10 (by decide), hothers .t11 (by decide)⟩
  · rw [← inW_measured_iff] at hone
    rw [if_neg hzero, if_pos hone] at hsel hfire
    rw [appendBit_eq_ofNat] at hfire
    obtain ⟨htaken, hothers⟩ := exec_decRow_of_select hproc h2 hrange hsel hfire
    exact ⟨htaken, hothers .t9 (by decide), hothers .t11 (by decide)⟩

end Sys2Proof.Machine
end

section
/-! `DEC.RUN` reads the first `n` entries of the buffer and the parameters, and writes neither (R170). -/

namespace Sys2Proof.Machine

/-- `DEC.RUN` within the buffer's capacity: the run's registers and its frame (R155). -/
theorem exec_decRun {s : State} {n : BitVec 32} (hproc : s.txProc = .idle) (hn : n.toNat ≤ edgeCap) :
    exec (.decRun n) s = .next { s with
      dec := decRun s.cfg (edgeAt s) n.toNat
      res := decFrame (decRun s.cfg (edgeAt s) n.toNat) } := by
  have hexec : exec (.decRun n) s = execDecRun n s := rfl
  rw [hexec, execDecRun, hostSide_idle hproc, if_pos hn]

/-- The working registers and the result port are no part of what an entry reads as. -/
theorem edgeAt_decoded (s : State) (d : Dec) (r : Res) : edgeAt { s with dec := d, res := r } = edgeAt s :=
  funext fun i => edgeAt_congr rfl rfl rfl i

/-- Settles O27: by `decRun_congr` a run looks at no entry from `n` on, and after a run every entry still reads as
before. -/
theorem decRunDependsOnBufferOnly : Obligations.DecRunDependsOnBufferOnly := by
  intro s₁ s₂ n hproc₁ hproc₂ hn hcfg hentries
  have hrun : decRun s₁.cfg (edgeAt s₁) n.toNat = decRun s₂.cfg (edgeAt s₂) n.toNat :=
    hcfg ▸ decRun_congr s₁.cfg (edgeAt s₁) hentries
  refine ⟨_, _, exec_decRun hproc₁ hn, exec_decRun hproc₂ hn, congrArg decFrame hrun, rfl, rfl,
    _, exec_decRun hproc₁ hn, ?_⟩
  simp only [edgeAt_decoded]

end Sys2Proof.Machine
end

section
/-! The framer's rows issued by themselves (R191 to R197; log entry 12): in a state where no entry is read past the
buffer, the row that the table selects does what `RX.FIRE` does, and every other row does nothing. F1 and F2 are
two of its uses. -/

namespace Sys2Proof.Machine

/-! ### A row as an instruction -/

/-- The instruction of a row of the framer table (R113, class RXF_T). -/
def RxRow.instr : RxRow → Instr
  | .f1 => .f1
  | .f2 => .f2
  | .f3 => .f3
  | .f4 => .f4
  | .f5 => .f5
  | .f6 => .f6

theorem exec_rxRow (r : RxRow) (s : State) : exec r.instr s = framerTransition r s := by cases r <;> rfl

theorem exec_rxFire (s : State) : exec .rxFire s = fireFramer s := rfl

theorem decode_encode_rxRow (r : RxRow) : decode (encode r.instr) = .ok r.instr := by cases r <;> rfl

/-! ### The selected row and the others -/

/-- Only F6 decodes (R197), so no other row that is selected reads an entry. -/
theorem framerOutOfRange_of_select {s : State} {r : RxRow} (hsel : framerFsm.select s = some r)
    (hr : r ≠ .f6) : framerOutOfRange s = false := by
  simp [framerOutOfRange, hsel, hr]

/-- Where no entry is read past the buffer, a row by itself is the engine's attempt at it. -/
theorem exec_rxRow_eq_tryRow {s : State} (hproc : s.txProc = .idle) (hrange : framerOutOfRange s = false)
    (r : RxRow) : exec r.instr s = .next (framerFsm.tryRow r s) := by
  rw [exec_rxRow, framerTransition, hostSide_idle hproc, if_neg (by simp [hrange])]

/-- The selected row is taken, by itself as by `RX.FIRE` (R198), and every other row by itself does nothing
(R131). -/
theorem exec_rxRow_of_select {s : State} {r : RxRow} (hproc : s.txProc = .idle)
    (hrange : framerOutOfRange s = false) (hsel : framerFsm.select s = some r) :
    exec r.instr s = .next (framerFsm.take r s) ∧ exec .rxFire s = .next (framerFsm.take r s) ∧
      ∀ q, q ≠ r → exec q.instr s = .next s := by
  refine ⟨?_, ?_, fun q hq => ?_⟩
  · rw [exec_rxRow_eq_tryRow hproc hrange, Fsm.tryRow, if_pos hsel]
  · rw [exec_rxFire, fireFramer, hostSide_idle hproc, hrange, Fsm.fire_of_select hsel]; rfl
  · rw [exec_rxRow_eq_tryRow hproc hrange, Fsm.tryRow,
      if_neg fun h => hq (Option.some.inj (h.symm.trans hsel))]

/-- `RX.FIRE` is the selected row, which ends in its to-state; F6 is left out, since its decode needs the count in
range. -/
theorem exec_rxFire_of_select {s : State} {r : RxRow} (hproc : s.txProc = .idle)
    (hsel : framerFsm.select s = some r) (hr : r ≠ .f6) :
    exec .rxFire s = exec r.instr s ∧ ∃ t, exec r.instr s = .next t ∧ t.rxState = framerFsm.dst r := by
  obtain ⟨htaken, hfire, -⟩ := exec_rxRow_of_select hproc (framerOutOfRange_of_select hsel hr) hsel
  exact ⟨hfire.trans htaken.symm, _, htaken, rfl⟩

/-! ### Arming and disarming -/

/-- Settles O32: in `OFF` an enable selects F1; its action is `armReceiver`, which leaves the noted count, and
outside `WAIT` that count is 0 by the invariant. -/
theorem framerArms : Obligations.FramerArms := by
  refine ⟨decode_encode_rxRow .f1, fun s hproc hoff hon => ?_⟩
  have hsel : framerFsm.select s = some .f1 := by rw [framerSelect_off hoff, if_pos hon]
  obtain ⟨htaken, -, -⟩ := exec_rxRow_of_select hproc (framerOutOfRange_of_select hsel (by decide)) hsel
  exact ⟨_, htaken, rfl, rfl, rfl, rfl, rfl, rfl, fun hinv => hinv.rest_count (by simp [hoff])⟩

/-- Settles O33: in `IDLE` a disable selects F2, whose action is `disarmReceiver`, before F3 is tried. -/
theorem framerDisarms : Obligations.FramerDisarms := by
  refine ⟨decode_encode_rxRow .f2, fun s hproc hidle hoff => ?_⟩
  have hsel : framerFsm.select s = some .f2 := by rw [framerSelect_idle hidle, if_pos hoff]
  obtain ⟨htaken, -, hothers⟩ := exec_rxRow_of_select hproc (framerOutOfRange_of_select hsel (by decide)) hsel
  exact ⟨htaken, hothers .f3 (by decide)⟩

end Sys2Proof.Machine
end

section
/-! The receiver's enable and the five accessors, as the host sees them (R199 to R204, R232). -/

namespace Sys2Proof.Machine

/-! ### The enable -/

/-- The host operation word of `RX.SETEN` carries the enable in bit 0 of its argument (R111, R199). -/
theorem decode_rxSeten_word (arg : BitVec 32) :
    decode ⟨.hostop, hostWord 1 arg, 0, 0⟩ = .ok (.rxSeten (arg.getLsbD 0)) := by
  have hword : decode ⟨.hostop, hostWord 1 arg, 0, 0⟩ = decodeHost (hostWord 1 arg) := rfl
  rw [hword, decodeHost, hostOp_hostWord, hostArg_hostWord]; rfl

theorem exec_rxSeten {s : State} (hproc : s.txProc = .idle) (b : Bool) :
    exec (.rxSeten b) s = .next { s with rxEnabled := b } := hostSide_idle hproc _

/-- Settles O10: a write of the enable leaves the framer's state register, and with the enable off the table selects
F2 in `IDLE` and F4 in `WAIT`, both of which end in `OFF`. -/
theorem rxSetenWritesEnableOnly : Obligations.RxSetenWritesEnableOnly := by
  refine ⟨decode_rxSeten_word, fun s b b' hproc =>
    ⟨exec_rxSeten hproc b, exec_rxSeten hproc b', fun hidle => ?_, fun hwait => ?_⟩⟩
  · exact exec_rxFire_of_select (s := { s with rxEnabled := false }) hproc (framerSelect_idle hidle) (by decide)
  · exact exec_rxFire_of_select (s := { s with rxEnabled := false }) hproc (framerSelect_wait hwait) (by decide)

/-! ### The accessors -/

theorem boolWord_decide (p : Prop) [Decidable p] : boolWord (decide p) = if p then 1 else 0 := by
  by_cases hp : p <;> simp [boolWord, hp]

theorem exec_rxGetcode {s : State} (hproc : s.txProc = .idle) :
    exec .rxGetcode s = .next { s with res := .word s.rxCode } := hostSide_idle hproc _

/-- The activity flag is computed from the state register (R33, R204). -/
theorem exec_rxIsactive {s : State} (hproc : s.txProc = .idle) :
    exec .rxIsactive s = .next { s with res := .word (if s.rxState = .wait then 1 else 0) } := by
  rw [← boolWord_decide]
  exact hostSide_idle hproc _

/-- Settles O11: outside an emission each accessor is one write of the result port; a stored repetition has the
code 0 by the structural invariant. -/
theorem accessorsAnswerAndChangeNothing : Obligations.AccessorsAnswerAndChangeNothing := by
  refine ⟨⟨rfl, rfl, rfl, rfl, rfl⟩, fun s hproc => ⟨exec_rxGetcode hproc, hostSide_idle hproc _,
    hostSide_idle hproc _, exec_rxIsactive hproc, hostSide_idle hproc _, fun hs hrep => ?_⟩⟩
  rw [exec_rxGetcode hproc, hs.rep_code hrep]

end Sys2Proof.Machine
end

section
/-! The host's write of the code to send (R231). -/

namespace Sys2Proof.Machine

/-- The host operation word of `TX.SETCODE` carries the code in its argument (R111). -/
theorem decode_txSetcode_word (c : BitVec 32) :
    decode ⟨.hostop, hostWord 9 c, 0, 0⟩ = .ok (.txSetcode c) := by
  have hword : decode ⟨.hostop, hostWord 9 c, 0, 0⟩ = decodeHost (hostWord 9 c) := rfl
  rw [hword, decodeHost, hostOp_hostWord, hostArg_hostWord]; rfl

/-- Outside an emission `TX.SETCODE` answers a next state for every code; only the stored code depends on the
value written. -/
theorem exec_txSetcode {s : State} (hproc : s.txProc = .idle) (c : BitVec 32) :
    exec (.txSetcode c) s = .next (if c ≠ 0 then { s with txCode := c } else s) := hostSide_idle hproc _

/-- Settles O13: the host's side runs outside an emission, and the two clauses are the two branches of the write;
neither looks at the code pending before it. -/
theorem txSetcodeStoresNonzero : Obligations.TxSetcodeStoresNonzero := by
  refine ⟨decode_txSetcode_word, fun s c hproc => ⟨fun hnonzero => ?_, fun hzero => ?_⟩⟩
  · rw [exec_txSetcode hproc, if_pos hnonzero]
  · rw [exec_txSetcode hproc, if_neg (not_not_intro hzero)]

end Sys2Proof.Machine
end

section
/-! The state registers at reset (R321): `RESET` binds the framer's and the transmitter's own tables, and every
`DEC.RUN` the decoder's, so each register is the from-state of its table's first row. -/

namespace Sys2Proof.Machine

/-! ### The initial state of a table -/

/-- A table that is not empty has an initial state, its first row's from-state (R133). -/
theorem Fsm.initial_of_rows {ρ q σ : Type} {m : Fsm ρ q σ} {r : ρ} {rest : List ρ} (hrows : m.rows = r :: rest) :
    m.initial = some (m.src r) := by
  rw [Fsm.initial, hrows, List.head?_cons, Option.map_some]

/-- The framer's first row is F1 (R191). -/
theorem framerFsm_initial : framerFsm.initial = some .off := Fsm.initial_of_rows (r := RxRow.f1) rfl

/-- The decoder's first row is T1 (R157). -/
theorem decFsm_initial (cfg : Params) (rd : Nat → Tick) : (decFsm cfg rd).initial = some .idle :=
  Fsm.initial_of_rows (r := DecRow.t1) rfl

/-- The transmitter's one row is X1 (R233). -/
theorem txFsm_initial : txFsm.initial = some .waiting := Fsm.initial_of_rows (r := TxRow.x1) rfl

/-! ### The registers -/

@[simp] theorem State.resetWith_rxState (cfg : Params) (tk ms : BitVec 32) :
    (State.resetWith cfg tk ms).rxState = .off := rfl

@[simp] theorem State.resetWith_txState (cfg : Params) (tk ms : BitVec 32) :
    (State.resetWith cfg tk ms).txState = .waiting := rfl

@[simp] theorem decStart_state (n : Nat) : (decStart n).state = .idle := rfl

/-- A `RESET` in any state gives the two registers the values of the reset state; the free values it draws are the
clocks' and the buffer's (R323). -/
theorem resetEvent_stateRegisters (s : State) :
    (resetEvent s).rxState = .off ∧ (resetEvent s).txState = .waiting := ⟨rfl, rfl⟩

/-- Settles O52: each register at reset, and the decoder's at the start of a run, is the initial state of its
table. -/
theorem resetStateRegisters : Obligations.ResetStateRegisters := by
  refine ⟨resetEvent_stateRegisters, fun cfg tk ms =>
    ⟨State.resetWith_rxState cfg tk ms, State.resetWith_txState cfg tk ms, ?framer, ?transmitter,
      fun rd n => ?decoder⟩⟩
  case framer => rw [framerFsm_initial, State.resetWith_rxState]
  case transmitter => rw [txFsm_initial, State.resetWith_txState]
  case decoder => rw [decFsm_initial, decStart_state]

end Sys2Proof.Machine
end

section
/-! The codes of the operation table in both directions (R110 to R113; log entry 9): every well-formed instruction
comes back from its slot, and outside the host operations every slot that decodes is the slot of its instruction. -/

namespace Sys2Proof

/-! ### From an instruction to its slot and back -/

/-- Each operand's word is read back as the operand. -/
@[simp] theorem boolOperand_boolWord (b : Bool) : boolOperand (boolWord b) = some b := by cases b <;> rfl

@[simp] theorem sideOperand_sideWord (d : WireSide) : sideOperand (sideWord d) = some d := by cases d <;> rfl

@[simp] theorem fsmOperand_fsmWord (m : FsmId) : fsmOperand (fsmWord m) = some m := by cases m <;> rfl

/-- An operand word that its reader accepts, with a zero second word, gives the operation. -/
theorem Slot.oneOperand_of_some {α : Type} {fmt : Format} {code : BitVec 36} {w : BitVec 32}
    {f : BitVec 32 → Option α} {a : α} (i : α → Instr) (ha : f w = some a) :
    (Slot.mk fmt code w 0).oneOperand f i = .ok (i a) := by
  rw [Slot.oneOperand, if_pos rfl, ha]

/-- The host operations that read their argument (R111). -/
@[simp] theorem decodeHost_rxSeten (arg : BitVec 32) :
    decodeHost (hostWord 1 arg) = .ok (.rxSeten (arg.getLsbD 0)) := by
  rw [decodeHost, hostOp_hostWord, hostArg_hostWord]; rfl

@[simp] theorem decodeHost_txSetcode (arg : BitVec 32) : decodeHost (hostWord 9 arg) = .ok (.txSetcode arg) := by
  rw [decodeHost, hostOp_hostWord, hostArg_hostWord]; rfl

/-- Every slot without an operand is read back by computation; an operand is read back by its reader's lemma, and
the three operand ranges of R150, R234 and R235 are what well-formedness asks. -/
theorem decode_encode {i : Instr} (h : i.wellFormed = true) : decode (encode i) = .ok i := by
  cases i with
  | rxSeten b => exact (decodeHost_rxSeten (boolWord b)).trans (by cases b <;> rfl)
  | txSetcode c => exact decodeHost_txSetcode c
  | prologue side | sym0 side | sym1 side | epilogue side =>
    exact Slot.oneOperand_of_some _ (sideOperand_sideWord side)
  | setCarrier b | enableCapture b => exact Slot.oneOperand_of_some _ (boolOperand_boolWord b)
  | fsmInit m t => cases m <;> cases t <;> rfl
  | fsmFire m | fsmDestroy m => exact Slot.oneOperand_of_some _ (fsmOperand_fsmWord m)
  | decRun n => exact Slot.oneOperand_of_some _ (if_pos (of_decide_eq_true h))
  | txEncode c => exact Slot.oneOperand_of_some _ (if_pos (of_decide_eq_true h))
  | txBurst on off =>
    simp only [Instr.wellFormed, Bool.and_eq_true, decide_eq_true_eq] at h
    exact if_pos h
  | rxFire | rxGetcode | rxGetrep | rxGeterr | rxResetcode | rxIsactive | txFire | txIsactive
  | t1 | t2 | t3 | t4 | t5 | t6 | t7 | t8 | t9 | t10 | t11 | f1 | f2 | f3 | f4 | f5 | f6 | x1 | repeatFrame
  | tick | mstick | edge | nowMillis | currentTick | startTimer | stopTimer | getEdgeCount | getEdgeBuffer
  | clearEdgeBuffer => rfl

/-- Settles O3: by `decode_encode`, class by class. -/
theorem decodeEncodeRoundTrip : Obligations.DecodeEncodeRoundTrip := fun _ => decode_encode

/-! ### From a slot to its instruction and back -/

/-- The instruction is well-formed and this is its slot. -/
def Slot.Spells (sl : Slot) (i : Instr) : Prop := i.wellFormed = true ∧ encode i = sl

/-- An operation that takes no operand word is spelled only with both words zero. -/
theorem Slot.spells_of_plain {sl : Slot} {i j : Instr} {code : BitVec 36} (h : sl.plain i = .ok j)
    (hwf : i.wellFormed = true) (henc : encode i = ⟨sl.fmt, code, 0, 0⟩) (hcode : sl.code.toNat = code.toNat) :
    sl.Spells j := by
  obtain ⟨rfl, h0, h1⟩ := Slot.plain_ok h
  obtain rfl := BitVec.eq_of_toNat_eq hcode
  obtain ⟨fmt, code, arg0, arg1⟩ := sl
  exact ⟨hwf, henc.trans (congrArg₂ (Slot.mk fmt code) h0.symm h1.symm)⟩

/-- An operation with one operand word is spelled only by the word that its reader undoes, and a zero second
word. -/
theorem Slot.spells_of_oneOperand {α : Type} {sl : Slot} {f : BitVec 32 → Option α} {i : α → Instr} {j : Instr}
    {code : BitVec 36} (h : sl.oneOperand f i = .ok j)
    (hop : ∀ a, f sl.arg0 = some a →
      (i a).wellFormed = true ∧ encode (i a) = ⟨sl.fmt, code, sl.arg0, 0⟩)
    (hcode : sl.code.toNat = code.toNat) : sl.Spells j := by
  obtain ⟨a, ha, rfl, h1⟩ := Slot.oneOperand_ok h
  obtain ⟨hwf, henc⟩ := hop a ha
  obtain rfl := BitVec.eq_of_toNat_eq hcode
  exact ⟨hwf, henc.trans (by rw [← h1])⟩

/-- The host operations are well-formed and keep their class, whatever their unused argument bits are. -/
theorem decodeHost_ok {w : BitVec 36} {i : Instr} (h : decodeHost w = .ok i) :
    i.wellFormed = true ∧ (encode i).fmt = .hostop := by
  unfold decodeHost at h
  split at h <;> cases h <;> exact ⟨rfl, rfl⟩

/-- The three classes of transition codes have no operand words (R113, R157, R191, R233). -/
theorem decodeDecT_spells {sl : Slot} {i : Instr} (hf : sl.fmt = .decT) (h : decodeDecT sl = .ok i) :
    sl.Spells i := by
  unfold decodeDecT at h
  split at h
  case h_12 => cases h
  all_goals exact Slot.spells_of_plain h rfl (by rw [hf]; rfl) ‹_›

theorem decodeRxfT_spells {sl : Slot} {i : Instr} (hf : sl.fmt = .rxfT) (h : decodeRxfT sl = .ok i) :
    sl.Spells i := by
  unfold decodeRxfT at h
  split at h
  case h_7 => cases h
  all_goals exact Slot.spells_of_plain h rfl (by rw [hf]; rfl) ‹_›

theorem decodeTxT_spells {sl : Slot} {i : Instr} (hf : sl.fmt = .txT) (h : decodeTxT sl = .ok i) :
    sl.Spells i := by
  unfold decodeTxT at h
  split at h
  · exact Slot.spells_of_plain h rfl (by rw [hf]; rfl) ‹_›
  · cases h

/-- The four symbols of class `WIRE` have a side, the repetition has none (R113). -/
theorem decodeWire_spells {sl : Slot} {i : Instr} (hf : sl.fmt = .wire) (h : decodeWire sl = .ok i) :
    sl.Spells i := by
  have hside : ∀ {d : WireSide}, sideOperand sl.arg0 = some d → sideWord d = sl.arg0 := sideWord_of_sideOperand
  unfold decodeWire at h
  split at h
  case h_6 => cases h
  case h_5 => exact Slot.spells_of_plain h rfl (by rw [hf]; rfl) ‹_›
  all_goals exact Slot.spells_of_oneOperand h (fun d hd => ⟨rfl, by rw [hf, ← hside hd]; rfl⟩) ‹_›

theorem decodeEvent_spells {sl : Slot} {i : Instr} (hf : sl.fmt = .event) (h : decodeEvent sl = .ok i) :
    sl.Spells i := by
  unfold decodeEvent at h
  split at h
  case h_4 => cases h
  all_goals exact Slot.spells_of_plain h rfl (by rw [hf]; rfl) ‹_›

/-- The two primitives that take a boolean have an operand word, the others have none (R113). -/
theorem decodePrim_spells {sl : Slot} {i : Instr} (hf : sl.fmt = .prim) (h : decodePrim sl = .ok i) :
    sl.Spells i := by
  have hbool : ∀ {b : Bool}, boolOperand sl.arg0 = some b → boolWord b = sl.arg0 := boolWord_of_boolOperand
  unfold decodePrim at h
  split at h
  case h_10 => cases h
  case h_5 | h_9 => exact Slot.spells_of_oneOperand h (fun b hb => ⟨rfl, by rw [hf, ← hbool hb]; rfl⟩) ‹_›
  all_goals exact Slot.spells_of_plain h rfl (by rw [hf]; rfl) ‹_›

/-- `FSM.INIT` has two operand words, the other engine operations one (R113; log entry 9). -/
theorem decodeFsmop_spells {sl : Slot} {i : Instr} (hf : sl.fmt = .fsmop) (h : decodeFsmop sl = .ok i) :
    sl.Spells i := by
  have hfsm : ∀ {m : FsmId}, fsmOperand sl.arg0 = some m → fsmWord m = sl.arg0 := fsmWord_of_fsmOperand
  unfold decodeFsmop at h
  split at h
  case h_1 hcode =>
    split at h
    · rename_i m t hm ht
      cases h
      obtain ⟨fmt, code, arg0, arg1⟩ := sl
      obtain rfl : code = 0b00 := BitVec.eq_of_toNat_eq hcode
      obtain rfl : fmt = .fsmop := hf
      exact ⟨rfl, congrArg₂ (Slot.mk .fsmop 0b00) (hfsm hm) (tableWord_of_tableOperand ht)⟩
    · cases h
  case h_4 => cases h
  all_goals exact Slot.spells_of_oneOperand h (fun m hm => ⟨rfl, by rw [hf, ← hfsm hm]; rfl⟩) ‹_›

/-- The internal procedures take only operands in their range (R150, R234, R235). -/
theorem decodeIntop_spells {sl : Slot} {i : Instr} (hf : sl.fmt = .intop) (h : decodeIntop sl = .ok i) :
    sl.Spells i := by
  unfold decodeIntop at h
  split at h
  case h_1 =>
    refine Slot.spells_of_oneOperand (code := 0b00) h (fun n hn => ?_) ‹_›
    obtain ⟨rfl, hle⟩ := countOperand_eq hn
    exact ⟨decide_eq_true hle, by rw [hf]; rfl⟩
  case h_2 =>
    refine Slot.spells_of_oneOperand (code := 0b01) h (fun c hc => ?_) ‹_›
    obtain ⟨rfl, hne⟩ := nonzeroOperand_eq hc
    exact ⟨decide_eq_true hne, by rw [hf]; rfl⟩
  case h_3 hcode =>
    split at h
    · rename_i hne
      cases h
      obtain ⟨fmt, code, arg0, arg1⟩ := sl
      obtain rfl : code = 0b10 := BitVec.eq_of_toNat_eq hcode
      obtain rfl : fmt = .intop := hf
      exact ⟨by simpa [Instr.wellFormed] using hne, rfl⟩
    · cases h
  case h_4 => cases h

/-- Every slot that decodes spells its instruction, or is a host operation's. -/
theorem decode_ok {sl : Slot} {i : Instr} (h : decode sl = .ok i) :
    (sl.fmt = .hostop ∧ i.wellFormed = true ∧ (encode i).fmt = .hostop) ∨ (sl.fmt ≠ .hostop ∧ sl.Spells i) := by
  unfold decode at h
  cases hf : sl.fmt <;> simp only [hf] at h
  case hostop =>
    split at h
    · exact .inl ⟨rfl, decodeHost_ok h⟩
    · cases h
  case decT => exact .inr ⟨by decide, decodeDecT_spells hf h⟩
  case rxfT => exact .inr ⟨by decide, decodeRxfT_spells hf h⟩
  case txT => exact .inr ⟨by decide, decodeTxT_spells hf h⟩
  case wire => exact .inr ⟨by decide, decodeWire_spells hf h⟩
  case event => exact .inr ⟨by decide, decodeEvent_spells hf h⟩
  case prim => exact .inr ⟨by decide, decodePrim_spells hf h⟩
  case fsmop => exact .inr ⟨by decide, decodeFsmop_spells hf h⟩
  case intop => exact .inr ⟨by decide, decodeIntop_spells hf h⟩

/-- What decodes is well-formed and of the slot's class. -/
theorem decode_wellFormed {sl : Slot} {i : Instr} (h : decode sl = .ok i) :
    i.wellFormed = true ∧ (encode i).fmt = sl.fmt := by
  obtain ⟨hf, hwf, hfmt⟩ | ⟨-, hwf, henc⟩ := decode_ok h
  · exact ⟨hwf, hfmt.trans hf.symm⟩
  · exact ⟨hwf, congrArg Slot.fmt henc⟩

/-- Settles O4: `decode_ok`, whose host case says nothing of the argument bits. -/
theorem encodeDecodeOneSlotEach : Obligations.EncodeDecodeOneSlotEach := by
  intro sl i h
  refine ⟨(decode_wellFormed h).1, (decode_wellFormed h).2, fun hne => ?_⟩
  obtain ⟨hf, -⟩ | ⟨-, -, henc⟩ := decode_ok h
  · exact absurd hf hne
  · exact henc

/-! ### The tables of words -/

/-- The op values 7 and 11 to 15 spell no operation (R108). -/
theorem decodeHost_undefined {op : BitVec 4} (h : op.toNat = 7 ∨ 11 ≤ op.toNat) (arg : BitVec 32) :
    decodeHost (hostWord op arg) = .error (.undefinedHostOp op) := by
  rw [decodeHost, hostOp_hostWord]
  split
  case h_11 => rfl
  all_goals omega

/-- An op value without an argument ignores the argument bits (R108, R111). -/
theorem decodeHost_congr {op : BitVec 4} (h : op ≠ 1 ∧ op ≠ 9) (arg : BitVec 32) :
    decodeHost (hostWord op arg) = decodeHost (hostWord op 0) := by
  have h1 : op.toNat ≠ 1 := fun hc => h.1 (BitVec.eq_of_toNat_eq hc)
  have h9 : op.toNat ≠ 9 := fun hc => h.2 (BitVec.eq_of_toNat_eq hc)
  simp only [decodeHost, hostOp_hostWord]
  split
  case h_2 | h_9 => omega
  all_goals rfl

/-- A code from the number of the class's codes on spells nothing (R113). -/
theorem decodeTxT_unknown {sl : Slot} (h : 1 ≤ sl.code.toNat) : decodeTxT sl = .error (.unknownCode sl.fmt) := by
  unfold decodeTxT
  split
  case h_2 => rfl
  all_goals omega

theorem decodeWire_unknown {sl : Slot} (h : 5 ≤ sl.code.toNat) : decodeWire sl = .error (.unknownCode sl.fmt) := by
  unfold decodeWire
  split
  case h_6 => rfl
  all_goals omega

theorem decodeEvent_unknown {sl : Slot} (h : 3 ≤ sl.code.toNat) : decodeEvent sl = .error (.unknownCode sl.fmt) := by
  unfold decodeEvent
  split
  case h_4 => rfl
  all_goals omega

theorem decodePrim_unknown {sl : Slot} (h : 9 ≤ sl.code.toNat) : decodePrim sl = .error (.unknownCode sl.fmt) := by
  unfold decodePrim
  split
  case h_10 => rfl
  all_goals omega

theorem decodeFsmop_unknown {sl : Slot} (h : 3 ≤ sl.code.toNat) : decodeFsmop sl = .error (.unknownCode sl.fmt) := by
  unfold decodeFsmop
  split
  case h_4 => rfl
  all_goals omega

theorem decodeIntop_unknown {sl : Slot} (h : 3 ≤ sl.code.toNat) : decodeIntop sl = .error (.unknownCode sl.fmt) := by
  unfold decodeIntop
  split
  case h_4 => rfl
  all_goals omega

/-- Settles O7: samples and small tables by computation, the operands of class `INTOP` by the round trip, and a code
past the last one of its class meets none of the class's rows. -/
theorem sampleWordsDecode : Obligations.SampleWordsDecode := by
  refine ⟨rfl, rfl, rfl, rfl, rfl, rfl, rfl, rfl, rfl, rfl, ?sides, rfl, rfl, rfl, rfl, rfl, rfl, rfl, rfl, rfl,
    ?bools, ?instances, fun n hn => decode_encode (i := .decRun n) (decide_eq_true hn),
    fun c hc => decode_encode (i := .txEncode c) (decide_eq_true hc),
    fun on off hon hoff => decode_encode (i := .txBurst on off) (by simpa [Instr.wellFormed] using ⟨hon, hoff⟩),
    ?unknown⟩
  case sides =>
    intro w side h
    simp only [List.mem_cons, Prod.mk.injEq, List.not_mem_nil, or_false] at h
    obtain ⟨rfl, rfl⟩ | ⟨rfl, rfl⟩ := h <;> exact ⟨rfl, rfl, rfl, rfl⟩
  case bools =>
    intro w b h
    simp only [List.mem_cons, Prod.mk.injEq, List.not_mem_nil, or_false] at h
    obtain ⟨rfl, rfl⟩ | ⟨rfl, rfl⟩ := h <;> exact ⟨rfl, rfl⟩
  case instances =>
    intro w m h
    simp only [List.mem_cons, Prod.mk.injEq, List.not_mem_nil, or_false] at h
    obtain ⟨rfl, rfl⟩ | ⟨rfl, rfl⟩ | ⟨rfl, rfl⟩ := h <;> exact ⟨rfl, rfl, rfl, rfl⟩
  case unknown =>
    intro fmt codes h code a b hcode
    simp only [List.mem_cons, Prod.mk.injEq, List.not_mem_nil, or_false] at h
    obtain ⟨rfl, rfl⟩ | ⟨rfl, rfl⟩ | ⟨rfl, rfl⟩ | ⟨rfl, rfl⟩ | ⟨rfl, rfl⟩ | ⟨rfl, rfl⟩ := h
    · exact decodeTxT_unknown hcode
    · exact decodeWire_unknown hcode
    · exact decodeEvent_unknown hcode
    · exact decodePrim_unknown hcode
    · exact decodeFsmop_unknown hcode
    · exact decodeIntop_unknown hcode

end Sys2Proof
end

section
/-! The numbers of the transitions (R112, R113) and the step that runs a decoded operation (R69, R108). -/

namespace Sys2Proof.Machine

/-- Settles O6: each code is its number by computation on the tables, whose rows do not depend on the parameters or
the buffer. -/
theorem transitionCodesArePositions : Obligations.TransitionCodesArePositions := by
  refine ⟨fun cfg rd r i h => ?decoder, fun r i h => ?framer, rfl, rfl⟩
  case decoder =>
    obtain rfl : i = r.instr := by
      cases r <;> simpa [DecRow.instr] using h
    cases r <;> exact ⟨rfl, rfl⟩
  case framer =>
    obtain rfl : i = r.instr := by
      cases r <;> simpa [RxRow.instr] using h
    cases r <;> exact ⟨rfl, rfl⟩

/-! ### The next input -/

theorem fetch_cons {s : State} {c : Cmd} {rest : List Cmd} (h : s.inbox = c :: rest) :
    fetch s = (c, { s with inbox := rest }) := by
  rw [fetch, h]

theorem fetch_nil {s : State} (h : s.inbox = []) :
    fetch s = (envCmd (Config.environment s.envSteps), { s with envSteps := s.envSteps + 1 }) := by
  rw [fetch, h]

/-- A slot that waits first and decodes is run (R69). -/
theorem step_of_decode_ok {s : State} {sl : Slot} {rest : List Cmd} {i : Instr} (hp : paramsOk s.cfg = true)
    (hin : s.inbox = .op sl :: rest) (hd : decode sl = .ok i) : step s = exec i { s with inbox := rest } := by
  simp only [step, hp, if_true, fetch_cons hin, hd]

/-- A slot that waits first and does not decode is refused by name (R108). -/
theorem step_of_decode_error {s : State} {sl : Slot} {rest : List Cmd} {r : Reject} (hp : paramsOk s.cfg = true)
    (hin : s.inbox = .op sl :: rest) (hd : decode sl = .error r) : step s = .refused (.undefinedWord r) := by
  simp only [step, hp, if_true, fetch_cons hin, hd]

/-- A `RESET` that waits first resets (R320). -/
theorem step_of_reset {s : State} {rest : List Cmd} (hp : paramsOk s.cfg = true) (hin : s.inbox = .reset :: rest) :
    step s = .next (resetEvent { s with inbox := rest }) := by
  simp only [step, hp, if_true, fetch_cons hin]

/-- Where nothing waits, a step is the step over the environment's choice (R69). -/
theorem step_of_nil {s : State} (hin : s.inbox = []) :
    step s = step { s with inbox := [envCmd (Config.environment s.envSteps)], envSteps := s.envSteps + 1 } := by
  have hsame : ({ s with envSteps := s.envSteps + 1 } : State) =
      { s with inbox := [], envSteps := s.envSteps + 1 } := by rw [← hin]
  rw [step, step, fetch_nil hin, fetch_cons (c := envCmd (Config.environment s.envSteps)) rfl, hsame]

/-- A bare word that the decoder reads has a slot, and the slot decodes to the same. -/
theorem decodeTableWord_some {nbits w : Nat} {i : Instr} (h : decodeTableWord nbits w = some i) :
    ∃ sl, tableSlot nbits w = some sl ∧ decode sl = .ok i := by
  unfold decodeTableWord at h
  split at h
  · rename_i sl hsl
    cases hd : decode sl with
    | ok j => rw [hd] at h; cases h; exact ⟨sl, hsl, hd⟩
    | error r => rw [hd] at h; cases h
  · cases h

/-- Settles O1: a waiting slot by `step_of_decode_ok`; a presented word is taken off again by the fetch, which leaves
the state as it was. -/
theorem stepRunsDecodedOperation : Obligations.StepRunsDecodedOperation := by
  refine ⟨fun s sl rest i hp hin hd => ⟨(decode_wellFormed hd).1, step_of_decode_ok hp hin hd⟩,
    fun s nbits w i hp hw => ?_, fun s => step_of_nil⟩
  obtain ⟨sl, hsl, hd⟩ := decodeTableWord_some hw
  have hpresent : s.withFetchWord nbits w = present sl s := by rw [State.withFetchWord, hsl]
  rw [hpresent]
  exact step_of_decode_ok (s := present sl s) hp rfl hd

/-- Settles O5: `decodeHost_congr` sets the unused argument bits to zero, where the table is by computation; the
undefined op values are refused by the step. -/
theorem hostWordTable : Obligations.HostWordTable := by
  have hunused : ∀ (op : BitVec 4) (arg : BitVec 32) (i : Instr), op ≠ 1 ∧ op ≠ 9 →
      decodeHost (hostWord op 0) = .ok i → decode ⟨.hostop, hostWord op arg, 0, 0⟩ = .ok i :=
    fun op arg i hop h => (decodeHost_congr hop arg).trans h
  intro arg
  refine ⟨hunused 0 arg _ (by decide) rfl, decodeHost_rxSeten arg, hunused 2 arg _ (by decide) rfl,
    hunused 3 arg _ (by decide) rfl, hunused 4 arg _ (by decide) rfl, hunused 5 arg _ (by decide) rfl,
    hunused 6 arg _ (by decide) rfl, hunused 8 arg _ (by decide) rfl, decodeHost_txSetcode arg,
    hunused 10 arg _ (by decide) rfl, fun op hop => ?_⟩
  have hundefined : decode ⟨.hostop, hostWord op arg, 0, 0⟩ = .error (.undefinedHostOp op) :=
    decodeHost_undefined hop arg
  exact ⟨hundefined, fun s rest hp hin => step_of_decode_error hp hin hundefined⟩

/-! ### The parameters -/

/-- The clauses of R7, each test as its comparison. -/
theorem paramsOk_iff (cfg : Params) : paramsOk cfg = true ↔
    (∀ n ∈ [cfg.txPrologueOn, cfg.txPrologueOff, cfg.txSym0On, cfg.txSym0Off, cfg.txSym1On, cfg.txSym1Off,
        cfg.txEpilogueOn, cfg.txEpilogueOff], 1 ≤ n ∧ n < tickModulus cfg.tickW) ∧
    (∀ w ∈ [cfg.wLeadOn, cfg.wLeadOff, cfg.wRepOff, cfg.wBitOn, cfg.wBit0Off, cfg.wBit1Off],
        w.lo ≤ w.hi ∧ w.hi < tickModulus cfg.tickW) ∧
    (cfg.wLeadOn.lo ≤ cfg.txPrologueOn ∧ cfg.txPrologueOn ≤ cfg.wLeadOn.hi) ∧
    (cfg.wLeadOff.lo ≤ cfg.txPrologueOff ∧ cfg.txPrologueOff ≤ cfg.wLeadOff.hi) ∧
    (cfg.wBitOn.lo ≤ cfg.txSym0On ∧ cfg.txSym0On ≤ cfg.wBitOn.hi) ∧
    (cfg.wBitOn.lo ≤ cfg.txSym1On ∧ cfg.txSym1On ≤ cfg.wBitOn.hi) ∧
    (cfg.wBitOn.lo ≤ cfg.txEpilogueOn ∧ cfg.txEpilogueOn ≤ cfg.wBitOn.hi) ∧
    (cfg.wBit0Off.lo ≤ cfg.txSym0Off ∧ cfg.txSym0Off ≤ cfg.wBit0Off.hi) ∧
    (cfg.wBit1Off.lo ≤ cfg.txSym1Off ∧ cfg.txSym1Off ≤ cfg.wBit1Off.hi) ∧
    ¬(cfg.wBit0Off.lo ≤ cfg.txSym1Off ∧ cfg.txSym1Off ≤ cfg.wBit0Off.hi) ∧
    ¬(cfg.wLeadOff.lo ≤ nominalRepOff cfg ∧ nominalRepOff cfg ≤ cfg.wLeadOff.hi) := by
  simp only [paramsOk, Bool.and_eq_true, List.all_eq_true, countOk_iff, windowOk_iff, within_iff,
    Bool.not_eq_true', ← Bool.not_eq_true, and_assoc]

/-- Settles O2: the test of R7 stands before every fetch. -/
theorem illFormedParametersAreRefused : Obligations.IllFormedParametersAreRefused := by
  refine ⟨fun s hbad => ?_, paramsOk_iff⟩
  rw [step, if_neg (by rw [hbad]; decide)]

end Sys2Proof.Machine
end

section
/-! Everything an instruction can do when it answers a next state, said once: the invariants and the lists of writers
are read off it, without a second look at `exec`. -/

namespace Sys2Proof.Machine

/-- The instruction `i` takes the state `s` to the state `t`: one constructor for each shared operation, with the
instructions that use it and what is known where it runs. -/
inductive Effect : Instr → State → State → Prop
  | unchanged (i : Instr) (s : State) : Effect i s s
  | answer (i : Instr) (r : Res) (s : State) : Effect i s (setRes r s)
  | decFire {i : Instr} {s : State} (hi : i = .fsmFire .decoder ∨ ∃ r : DecRow, i = r.instr)
      (h2 : 2 ≤ s.dec.rem) : Effect i s { s with dec := (decFsm s.cfg (edgeAt s)).fire s.dec }
  | decRun {n : BitVec 32} {s : State} (hn : n.toNat ≤ edgeCap) :
      Effect (.decRun n) s { s with
        dec := decRun s.cfg (edgeAt s) n.toNat, res := decFrame (decRun s.cfg (edgeAt s) n.toNat) }
  | framerRow {i : Instr} {r : RxRow} {s : State} (hi : i ∈ [r.instr, .rxFire, .fsmFire .framer])
      (hproc : s.txProc = .idle) (hsel : framerFsm.select s = some r) : Effect i s (framerFsm.take r s)
  | initFramer (s : State) : Effect (.fsmInit .framer .own) s { s with rxState := .off }
  | initDecoder (s : State) :
      Effect (.fsmInit .decoder .own) s { s with dec := { s.dec with state := .idle } }
  | initTransmitter (s : State) : Effect (.fsmInit .transmitter .own) s { s with txState := .waiting }
  | enable (b : Bool) (s : State) : Effect (.rxSeten b) s { s with rxEnabled := b }
  | forgetFrame (s : State) : Effect .rxResetcode s { s with rxCode := 0, rxRep := false, rxErr := false }
  | pend {s : State} (c : BitVec 32) (hproc : s.txProc = .idle) : Effect (.txSetcode c) s { s with txCode := c }
  | beginFire {i : Instr} {s : State} (hi : i ∈ [Instr.txFire, .x1, .fsmFire .transmitter])
      (hcode : s.txCode ≠ 0) : Effect i s (beginEncode (.fire s.txCode) s)
  | beginEncode (c : BitVec 32) (s : State) : Effect (.txEncode c) s (beginEncode (.encode c) s)
  | beginBurst {i : Instr} (on off : Nat) (s : State)
      (hi : i ∈ [Instr.prologue .send, .sym0 .send, .sym1 .send, .epilogue .send] ∨ ∃ m n, i = .txBurst m n) :
      Effect i s (beginProc (.burst on off) s)
  | arrive {i : Instr} (cmds : List Cmd) (fresh : Nat) (s : State)
      (hi : i ∈ [Instr.prologue .receive, .sym0 .receive, .sym1 .receive, .epilogue .receive, .repeatFrame]) :
      Effect i s { s with inbox := cmds, fresh := fresh }
  | tick (s : State) : Effect .tick s (tickEvent s)
  | mstick (s : State) : Effect .mstick s (mstickEvent s)
  | edge (s : State) : Effect .edge s (edgeEvent s)
  | startTimer (s : State) : Effect .startTimer s (startTimer s)
  | stopTimer (s : State) : Effect .stopTimer s (stopTimer s)
  | setCarrier (b : Bool) (s : State) : Effect (.setCarrier b) s (setCarrier b s)
  | clearEdgeBuffer (s : State) : Effect .clearEdgeBuffer s (clearEdgeBuffer s)
  | enableCapture (b : Bool) (s : State) : Effect (.enableCapture b) s (enableCapture b s)

/-! ### The operations that more than one instruction uses -/

theorem decTransition_effect {r : DecRow} {s t : State} (h : decTransition r s = .next t) :
    Effect r.instr s t := by
  obtain ⟨-, rfl | ⟨h2, -, rfl⟩⟩ := decTransition_next h
  · exact .unchanged _ _
  · exact .decFire (.inr ⟨r, rfl⟩) h2

theorem fireDecoder_effect {s t : State} (h : fireDecoder s = .next t) : Effect (.fsmFire .decoder) s t := by
  obtain ⟨-, rfl | ⟨h2, rfl⟩⟩ := fireDecoder_next h
  · exact .unchanged _ _
  · exact .decFire (.inl rfl) h2

theorem framerTransition_effect {r : RxRow} {s t : State} (h : framerTransition r s = .next t) :
    Effect r.instr s t := by
  obtain ⟨hproc, rfl | ⟨hsel, -, rfl⟩⟩ := framerTransition_next h
  · exact .unchanged _ _
  · rw [Fsm.fire_of_select hsel]
    exact .framerRow (by simp) hproc hsel

theorem fireFramer_effect {i : Instr} {s t : State} (hi : i ∈ [Instr.rxFire, .fsmFire .framer])
    (h : fireFramer s = .next t) : Effect i s t := by
  obtain ⟨hproc, -, rfl⟩ := fireFramer_next h
  obtain ⟨r, hsel, hfire⟩ | ⟨-, hsame⟩ := framerFsm.fire_cases s
  · rw [hfire]; exact .framerRow (List.mem_cons_of_mem _ hi) hproc hsel
  · rw [hsame]; exact .unchanged _ _

theorem txFire_effect {i : Instr} (hi : i ∈ [Instr.txFire, .x1, .fsmFire .transmitter]) (s : State) :
    Effect i s (txFsm.fire s) := by
  rw [txFire_eq]
  split
  · exact .unchanged _ _
  · exact .beginFire hi ‹_›

/-- A wire symbol is a burst when it is sent, and inputs that wait when it is received. -/
theorem wireBurst_effect {i : WireSide → Instr} {side : WireSide} {on off : Nat} {s t : State}
    (hi : i ∈ [Instr.prologue, .sym0, .sym1, .epilogue]) (h : wireBurst side on off s = .next t) :
    Effect (i side) s t := by
  obtain ⟨rfl, -, rfl⟩ | ⟨rfl, rfl⟩ := wireBurst_next h
  · exact .beginBurst on off s (.inl (List.mem_map_of_mem (f := (· .send)) hi))
  · exact .arrive _ _ s (List.mem_append_left [.repeatFrame] (List.mem_map_of_mem (f := (· .receive)) hi))

theorem initFsm_effect (m : FsmId) (s : State) : Effect (.fsmInit m .own) s (initFsm m s) := by
  rw [initFsm_eq]
  cases m
  · exact .initFramer s
  · exact .initDecoder s
  · exact .initTransmitter s

/-! ### Every instruction -/

/-- An operation of the host's side with one answer, when it answers a next state. -/
theorem hostSide_next_eq {s u t : State} (h : hostSide s (.next u) = .next t) : s.txProc = .idle ∧ t = u := by
  obtain ⟨hproc, hnext⟩ := hostSide_next h
  cases hnext
  exact ⟨hproc, rfl⟩

theorem exec_effect {i : Instr} {s t : State} (h : exec i s = .next t) : Effect i s t := by
  cases i with
  | t1 | t2 | t3 | t4 | t5 | t6 | t7 | t8 | t9 | t10 | t11 => exact (decTransition_effect h :)
  | f1 | f2 | f3 | f4 | f5 | f6 => exact (framerTransition_effect h :)
  | rxFire => exact fireFramer_effect (by simp) h
  | rxSeten b => obtain ⟨-, rfl⟩ := hostSide_next_eq h; exact .enable b s
  | rxGetcode | rxGetrep | rxGeterr | rxIsactive | txIsactive =>
    obtain ⟨-, rfl⟩ := hostSide_next_eq h; exact .answer _ _ s
  | rxResetcode => obtain ⟨-, rfl⟩ := hostSide_next_eq h; exact .forgetFrame s
  | txSetcode c =>
    obtain ⟨hproc, rfl⟩ := hostSide_next_eq h
    split
    · exact .pend c hproc
    · exact .unchanged _ s
  | txFire => obtain ⟨-, rfl⟩ := fireTransmitter_next h; exact txFire_effect (by simp) s
  | x1 => obtain ⟨-, rfl⟩ := execX1_next h; exact txFire_effect (by simp) s
  | prologue side => exact wireBurst_effect (i := .prologue) (by simp) h
  | sym0 side => exact wireBurst_effect (i := .sym0) (by simp) h
  | sym1 side => exact wireBurst_effect (i := .sym1) (by simp) h
  | epilogue side => exact wireBurst_effect (i := .epilogue) (by simp) h
  | repeatFrame => cases h; exact .arrive _ _ s (by simp)
  | tick => cases h; exact .tick s
  | mstick => cases h; exact .mstick s
  | edge => cases h; exact .edge s
  | nowMillis | currentTick | getEdgeCount | getEdgeBuffer => cases h; exact .answer _ _ s
  | startTimer => cases h; exact .startTimer s
  | stopTimer => cases h; exact .stopTimer s
  | setCarrier b => cases h; exact .setCarrier b s
  | clearEdgeBuffer => cases h; exact .clearEdgeBuffer s
  | enableCapture b => cases h; exact .enableCapture b s
  | fsmInit m a =>
    cases a with
    | own => obtain ⟨-, rfl⟩ := hostSide_next_eq h; exact initFsm_effect m s
    | empty => cases (hostSide_next h).2
  | fsmFire m =>
    cases m with
    | framer => exact fireFramer_effect (by simp) h
    | decoder => exact fireDecoder_effect h
    | transmitter => obtain ⟨-, rfl⟩ := fireTransmitter_next h; exact txFire_effect (by simp) s
  | fsmDestroy m => obtain ⟨-, rfl⟩ := hostSide_next_eq h; exact .unchanged _ _
  | decRun n => obtain ⟨-, hn, rfl⟩ := execDecRun_next h; exact .decRun hn
  | txEncode c => obtain ⟨-, rfl⟩ := hostSide_next_eq h; exact .beginEncode c s
  | txBurst on off => obtain ⟨-, -, rfl⟩ := execTxBurst_next h; exact .beginBurst _ _ _ (.inr ⟨on, off, rfl⟩)

end Sys2Proof.Machine
end

section
/-! The structural invariant under every step (R39, R40, R44, R45, R48, R172), and that no step from it faults
(R61, R290). -/

namespace Sys2Proof.Machine

/-! ### The shared operations keep the structural invariant -/

theorem Structural.startTimer {s : State} (hs : Structural s) : Structural (startTimer s) :=
  { hs with tick_width := tickModulus_pos _ }

theorem Structural.clearEdgeBuffer {s : State} (hs : Structural s) : Structural (clearEdgeBuffer s) :=
  { hs with
    ebuf_wf := Memory.wf_clear s
    ebuf_listed := fun i => by simp
    ebuf_width := fun i v h => by simp at h
    ecount_le := Nat.zero_le _ }

/-- An emission begins at segment 0, and every procedure has one. -/
theorem Structural.beginProc {s : State} (hs : Structural s) (p : TxProc) : Structural (beginProc p s) :=
  { hs with
    start_width := hs.tick_width
    proc_seg := procSegments_ne_nil }

/-- A decoder result with consistent registers has one of the shapes of a frame (R172). -/
theorem Structural.storeFrame {s : State} (hs : Structural s) {d : Dec} (hd : DecOk d) :
    Structural (storeFrame d s) :=
  { hs with
    dec_ok := hd
    rep_code := hd.rep_code
    err_code := (errFlag_iff d.code d.rep).mp }

/-- The noted count is the edge count, which 32 bits hold. -/
theorem Structural.noteEdges {s : State} (hs : Structural s) : Structural (noteEdges s) :=
  { hs with last_le := (Nat.mod_le _ _).trans hs.ecount_le }

theorem Structural.endFrame {s : State} (hs : Structural s) : Structural (endFrame s) :=
  { (hs.storeFrame (decRun_ok s.cfg (edgeAt s) hs.last_le)).clearEdgeBuffer with last_le := Nat.zero_le _ }

/-- The end of an emission, with the code it leaves as a field. -/
theorem endProc_eq (s : State) : endProc s = { s with
    txProc := .idle, txSeg := 0, txSegStart := 0, carrier := false, txCode := (endProc s).txCode } := by
  unfold endProc; split <;> rfl

theorem Structural.endProc {s : State} (hs : Structural s) : Structural (endProc s) := by
  rw [endProc_eq]
  exact { hs with
    start_width := tickModulus_pos _
    proc_seg := fun h => absurd rfl h }

/-- A check leaves an emission at a segment that exists, or ends it. -/
theorem Structural.sequencerCheck {s : State} (hs : Structural s) : Structural (sequencerCheck s) := by
  obtain hsame | ⟨l, n, l', n', -, -, hnext, hadvance⟩ | ⟨l, n, -, -, -, hend⟩ := sequencerCheck_cases s
  · rw [hsame]; exact hs
  · rw [hadvance]
    exact { hs with
      start_width := hs.tick_width
      proc_seg := fun _ => (List.getElem?_eq_some_iff.mp hnext).1 }
  · rw [hend]; exact hs.endProc

theorem Structural.tickEvent {s : State} (hs : Structural s) : Structural (tickEvent s) := by
  rw [tickEvent_eq]
  refine Structural.sequencerCheck { hs with tick_width := ?_ }
  split
  · exact trunc_lt _ _
  · exact hs.tick_width

/-- A capture lists one entry more, the counter's value at the old count. -/
theorem Structural.edgeEvent {s : State} (hs : Structural s) : Structural (edgeEvent s) := by
  obtain ⟨-, hroom, hstore⟩ | ⟨-, hsame⟩ := edgeEvent_cases s
  · have hwf := edgeEvent_wf hs.ebuf_wf
    rw [hstore] at hwf ⊢
    refine { hs with
      ebuf_wf := hwf
      ebuf_listed := fun i => ?_
      ebuf_width := fun i v hv => ?_
      ecount_le := hroom }
    · change _ = decide (i < s.ecount + 1)
      rw [Memory.read_write]
      by_cases hi : i = s.ecount
      · simp [hi]
      · rw [if_neg hi, hs.ebuf_listed, decide_eq_decide]; omega
    · rw [Memory.read_write] at hv
      split at hv
      · cases hv; exact hs.tick_width
      · exact hs.ebuf_width i v hv
  · rw [hsame]; exact hs

/-- Every row of the framer keeps the structural invariant. -/
theorem Structural.framerTake {s : State} (hs : Structural s) (r : RxRow) : Structural (framerFsm.take r s) := by
  cases r with
  | f1 => exact { hs.startTimer.clearEdgeBuffer with last_le := hs.last_le }
  | f2 => exact { hs with last_le := hs.last_le }
  | f3 | f5 => exact { hs.noteEdges with dec_ok := hs.dec_ok }
  | f4 => exact { hs with last_le := Nat.zero_le _ }
  | f6 => exact { hs.endFrame with last_le := Nat.zero_le _ }

/-- The state register of the decoder alone may be put back to `IDLE`. -/
theorem DecOk.toIdle {d : Dec} (hd : DecOk d) : DecOk { d with state := .idle } :=
  { hd with
    init_code := fun h => by cases h
    pulse_bits := fun h => by cases h
    rep_bits := fun _ h => by rcases h with h | h <;> cases h }

theorem State.resetWith_structural {cfg : Params} {tk : BitVec 32} (htk : tk.toNat < tickModulus cfg.tickW)
    (ms : BitVec 32) : Structural (State.resetWith cfg tk ms) where
  ebuf_wf := rfl
  ebuf_listed _ := rfl
  ebuf_width i v h := by simp [State.resetWith] at h
  ecount_le := Nat.zero_le _
  last_le := Nat.zero_le _
  tick_width := htk
  start_width := tickModulus_pos _
  dec_ok := decStart_ok (Nat.zero_le _)
  rep_code h := by cases h
  err_code h := by cases h
  proc_seg h := absurd rfl h

theorem resetEvent_structural (s : State) : Structural (resetEvent s) :=
  { State.resetWith_structural (trunc_lt s.cfg.tickW (Config.resetTick s.fresh)) (Config.resetMs s.fresh) with
    last_le := Nat.zero_le _ }

/-! ### Every step -/

/-- Whatever an instruction does, the structural invariant stays. -/
theorem Effect.structural {i : Instr} {s t : State} (h : Effect i s t) (hs : Structural s) : Structural t := by
  cases h with
  | unchanged => exact hs
  | decFire _ h2 => exact { hs with dec_ok := decFire_ok s.cfg (edgeAt s) s.dec h2 hs.dec_ok }
  | decRun hn => exact { hs with dec_ok := decRun_ok s.cfg (edgeAt s) hn }
  | framerRow => exact hs.framerTake _
  | initDecoder => exact { hs with dec_ok := hs.dec_ok.toIdle }
  | forgetFrame =>
    exact { hs with
      rep_code := fun h => by cases h
      err_code := fun h => by cases h }
  | beginFire | beginEncode => exact hs.startTimer.beginProc _
  | beginBurst => exact hs.beginProc _
  | tick => exact hs.tickEvent
  | edge => exact hs.edgeEvent
  | startTimer => exact hs.startTimer
  | clearEdgeBuffer => exact hs.clearEdgeBuffer
  | answer | initFramer | initTransmitter | enable | pend | arrive | mstick | stopTimer | setCarrier
  | enableCapture => exact { hs with dec_ok := hs.dec_ok }

/-- A fetch takes an input, of which the invariant does not speak. -/
theorem Structural.fetch {s : State} (hs : Structural s) : Structural (fetch s).2 := by
  rw [fetch_frame]
  exact { hs with dec_ok := hs.dec_ok }

/-- Settles O55: a step is a fetch and then `RESET` or an instruction's effect. -/
theorem stepKeepsStructural : Obligations.StepKeepsStructural := by
  intro s t hs hstep
  obtain ⟨-, ⟨-, rfl⟩ | ⟨_, _, -, -, hexec⟩⟩ := step_next hstep
  · exact resetEvent_structural _
  · exact (exec_effect hexec).structural hs.fetch

/-! ### No step faults -/

/-- A fire that two remaining edges allow reads inside the buffer. -/
theorem decTransition_ne_fault {r : DecRow} {s : State} (hs : Structural s) (f : Fault) :
    decTransition r s ≠ .fault f := by
  intro h
  obtain ⟨-, h⟩ := hostSide_fault h
  split at h
  · cases h
  · rename_i hfew
    rw [decOutOfRange_of_ok hs.dec_ok (by omega)] at h
    cases h

theorem fireDecoder_ne_fault {s : State} (hs : Structural s) (f : Fault) : fireDecoder s ≠ .fault f := by
  intro h
  obtain ⟨-, h⟩ := hostSide_fault h
  split at h
  · cases h
  · rw [decOutOfRange_of_ok hs.dec_ok (by omega)] at h
    cases h

/-- The count noted never exceeds the capacity, so F6 reads inside the buffer. -/
theorem framerTransition_ne_fault {r : RxRow} {s : State} (hs : Structural s) (f : Fault) :
    framerTransition r s ≠ .fault f := by
  intro h
  obtain ⟨-, h⟩ := hostSide_fault h
  rw [framerOutOfRange_of_le hs.last_le, if_neg (by simp)] at h
  cases h

theorem fireFramer_ne_fault {s : State} (hs : Structural s) (f : Fault) : fireFramer s ≠ .fault f := by
  intro h
  obtain ⟨hproc, -⟩ := hostSide_fault h
  rw [fireFramer_of_le hproc hs.last_le] at h
  cases h

theorem execDecRun_ne_fault {n : BitVec 32} (hn : n.toNat ≤ edgeCap) (s : State) (f : Fault) :
    execDecRun n s ≠ .fault f := by
  intro h
  obtain ⟨-, h⟩ := hostSide_fault h
  rw [if_pos hn] at h
  cases h

/-- An operation of the host's side whose own answer is no fault does not fault. -/
theorem hostSide_ne_fault {s : State} {o : Host.Outcome State Fault Refusal} {f : Fault} (ho : o ≠ .fault f) :
    hostSide s o ≠ .fault f := fun h => ho (hostSide_fault h).2

theorem wireBurst_ne_fault (side : WireSide) (on off : Nat) (s : State) (f : Fault) :
    wireBurst side on off s ≠ .fault f := by
  cases side with
  | send => exact hostSide_ne_fault (by simp)
  | receive => simp [wireBurst]

/-- Only the decoder's rows, its fire, its run and the framer's rows can read an entry. -/
theorem exec_ne_fault {i : Instr} {s : State} (hs : Structural s) (hwf : i.wellFormed = true) (f : Fault) :
    exec i s ≠ .fault f := by
  cases i with
  | t1 | t2 | t3 | t4 | t5 | t6 | t7 | t8 | t9 | t10 | t11 => exact decTransition_ne_fault hs f
  | f1 | f2 | f3 | f4 | f5 | f6 => exact framerTransition_ne_fault hs f
  | rxFire => exact fireFramer_ne_fault hs f
  | decRun n => exact execDecRun_ne_fault (of_decide_eq_true hwf) s f
  | fsmFire m =>
    cases m with
    | framer => exact fireFramer_ne_fault hs f
    | decoder => exact fireDecoder_ne_fault hs f
    | transmitter => exact hostSide_ne_fault (by simp)
  | fsmInit m a => exact hostSide_ne_fault (by cases a <;> simp)
  | txBurst on off => exact hostSide_ne_fault (by split <;> simp)
  | prologue | sym0 | sym1 | epilogue => exact wireBurst_ne_fault _ _ _ s f
  | rxSeten | rxGetcode | rxGetrep | rxGeterr | rxResetcode | rxIsactive | txFire | txSetcode | txIsactive | x1
  | fsmDestroy | txEncode => exact hostSide_ne_fault (by simp)
  | tick | mstick | edge | repeatFrame | nowMillis | currentTick | startTimer | stopTimer | setCarrier
  | getEdgeCount | getEdgeBuffer | clearEdgeBuffer | enableCapture => exact fun h => by cases h

/-- Settles O56: what the step decodes is well-formed, and the fetch keeps the invariant. -/
theorem noStepFaults : Obligations.NoStepFaults := by
  intro s f hs hstep
  obtain ⟨_, _, -, hd, hexec⟩ := step_fault hstep
  exact exec_ne_fault hs.fetch (decode_wellFormed hd).1 f hexec

end Sys2Proof.Machine
end

section
/-! The invariant of the block (R48, R208) after reset and under every agent's step. -/

namespace Sys2Proof.Machine

/-! ### Which operations are agents' steps -/

/-- The events and the host's operations (R68). -/
def agentInstr (i : Instr) : Bool := decide ((encode i).fmt = .event) || decide ((encode i).fmt = .hostop)

/-- What an agent's slot decodes to is an agent's operation. -/
theorem agentInstr_of_decode {sl : Slot} {i : Instr} (h : decode sl = .ok i)
    (hsl : (Cmd.op sl).isAgentStep = true) : agentInstr i = true := by
  rw [agentInstr, (decode_wellFormed h).2]
  exact hsl

/-! ### The rows of the framer -/

/-- A noted count that differs from the last one is at least 1 and at most the edge count. -/
theorem noteEdges_count {s : State} (hs : Structural s) (hnew : newEdges s = true)
    (hseen : s.rxLastCount.toNat ≤ s.ecount) :
    1 ≤ (noteEdges s).rxLastCount.toNat ∧ (noteEdges s).rxLastCount.toNat ≤ s.ecount := by
  have hcount : (BitVec.ofNat 32 s.ecount).toNat = s.ecount := by
    have hle : s.ecount ≤ 67 := hs.ecount_le
    rw [BitVec.toNat_ofNat, Nat.mod_eq_of_lt (by omega)]
  have hne : s.ecount ≠ s.rxLastCount.toNat := fun heq =>
    of_decide_eq_true hnew (BitVec.eq_of_toNat_eq (hcount.trans heq))
  change 1 ≤ (BitVec.ofNat 32 s.ecount).toNat ∧ (BitVec.ofNat 32 s.ecount).toNat ≤ s.ecount
  rw [hcount]
  omega

/-- A row of the framer runs outside any emission and keeps the counts and the capture in step with its to-state. -/
theorem BlockInv.framerTake {s : State} {r : RxRow} (hb : BlockInv s) (hproc : s.txProc = .idle)
    (hsel : framerFsm.select s = some r) : BlockInv (framerFsm.take r s) := by
  have hs := hb.structural.framerTake r
  obtain ⟨-, hsrc, hguard⟩ := Fsm.select_spec hsel
  have hon : ∀ {q : RxState}, q ≠ .off → q = s.rxState → s.capEn = true ∧ s.tickRun = true :=
    fun hne heq => hb.on_capture fun hoff => hne (heq.trans hoff)
  cases r with
  | f1 =>
    exact { hb with
      structural := hs
      rest_count := fun _ => hb.rest_count fun hwait => by cases hsrc.trans hwait
      wait_count := fun h => by cases h
      seen_le := (congrArg BitVec.toNat (hb.rest_count fun hwait => by cases hsrc.trans hwait)).le
      off_capture := fun h => by cases h
      on_capture := fun _ => ⟨rfl, rfl⟩
      emission := .inl hproc }
  | f2 =>
    exact { hb with
      structural := hs
      rest_count := fun _ => hb.rest_count fun hwait => by cases hsrc.trans hwait
      wait_count := fun h => by cases h
      off_capture := fun _ => rfl
      on_capture := fun h => absurd rfl h
      emission := .inl hproc }
  | f3 | f5 =>
    obtain ⟨hpos, hle⟩ := noteEdges_count hb.structural hguard hb.seen_le
    exact { hb with
      structural := hs
      rest_count := fun h => absurd rfl h
      wait_count := fun _ => hpos
      seen_le := hle
      off_capture := fun h => by cases h
      on_capture := fun _ => hon (by decide) hsrc
      emission := .inl hproc }
  | f4 =>
    exact { hb with
      structural := hs
      rest_count := fun _ => rfl
      wait_count := fun h => by cases h
      seen_le := Nat.zero_le _
      off_capture := fun _ => rfl
      on_capture := fun h => absurd rfl h
      emission := .inl hproc }
  | f6 =>
    exact { hb with
      structural := hs
      rest_count := fun _ => rfl
      wait_count := fun h => by cases h
      seen_le := Nat.zero_le _
      off_capture := fun h => by cases h
      on_capture := fun _ => hon (by decide) hsrc
      emission := .inl hproc }

/-! ### The emission -/

/-- The first segment of a waveform is an ON segment (R236). -/
theorem wave_head (cfg : Params) (c : BitVec 32) : (wave cfg c)[0]? = some (true, cfg.txPrologueOn) := rfl

/-- A `TX.FIRE` with a code pending starts in segment 0, the carrier on and the counter running. -/
theorem BlockInv.beginFire {s : State} (hb : BlockInv s) (hcode : s.txCode ≠ 0) :
    BlockInv (beginEncode (.fire s.txCode) s) :=
  { hb with
    structural := hb.structural.startTimer.beginProc _
    on_capture := fun h => ⟨(hb.on_capture h).1, rfl⟩
    dark_when_idle := fun h => by cases h
    emission := .inr ⟨rfl, hcode, rfl, by simp [wave_head]⟩ }

theorem BlockInv.endProc {s : State} (hb : BlockInv s) : BlockInv (endProc s) := by
  have hs := hb.structural.endProc
  rw [endProc_eq] at hs ⊢
  exact { hb with
    structural := hs
    dark_when_idle := fun _ => rfl
    emission := .inl rfl }

/-- The segment that a check begins is one of the waveform's, with the waveform's level. -/
theorem BlockInv.sequencerCheck {s : State} (hb : BlockInv s) : BlockInv (sequencerCheck s) := by
  have hs := hb.structural.sequencerCheck
  obtain hsame | ⟨l, n, l', n', hseg, -, hnext, hadvance⟩ | ⟨l, n, -, -, -, hend⟩ := sequencerCheck_cases s
  · rw [hsame]; exact hb
  · obtain hidle | ⟨hfire, hcode, hrun, -⟩ := hb.emission
    · simp [hidle] at hseg
    · rw [hadvance] at hs ⊢
      rw [hfire] at hnext
      exact { hb with
        structural := hs
        dark_when_idle := fun h => by cases hfire.symm.trans h
        emission := .inr ⟨hfire, hcode, hrun, congrArg (Option.map Prod.fst) hnext⟩ }
  · rw [hend]; exact hb.endProc

theorem BlockInv.tickEvent {s : State} (hb : BlockInv s) : BlockInv (tickEvent s) := by
  rw [tickEvent_eq]
  refine BlockInv.sequencerCheck { hb with structural := { hb.structural with tick_width := ?_ } }
  split
  · exact trunc_lt _ _
  · exact hb.structural.tick_width

theorem BlockInv.edgeEvent {s : State} (hb : BlockInv s) : BlockInv (edgeEvent s) := by
  have hs := hb.structural.edgeEvent
  obtain ⟨-, -, hstore⟩ | ⟨-, hsame⟩ := edgeEvent_cases s
  · rw [hstore] at hs ⊢
    exact { hb with
      structural := hs
      seen_le := Nat.le_succ_of_le hb.seen_le }
  · rw [hsame]; exact hb

/-! ### Reset -/

theorem State.resetWith_blockInv {cfg : Params} {tk : BitVec 32} (htk : tk.toNat < tickModulus cfg.tickW)
    (ms : BitVec 32) : BlockInv (State.resetWith cfg tk ms) where
  structural := State.resetWith_structural htk ms
  inbox_agents := rfl
  rest_count _ := rfl
  wait_count h := by cases h
  seen_le := Nat.zero_le _
  off_capture _ := rfl
  on_capture h := absurd rfl h
  dark_when_idle _ := rfl
  emission := .inl rfl

/-- Settles O58: the default state is one of the reset states, with both clocks at 0. -/
theorem resetHasBlockInv : Obligations.ResetHasBlockInv :=
  fun _ _ ms htk => ⟨State.resetWith_blockInv htk ms, 
    State.resetWith_blockInv (cfg := defaultParams) (tk := 0) (tickModulus_pos _) 0⟩

/-- A `RESET` keeps only what waits. -/
theorem BlockInv.resetEvent {s : State} (hb : BlockInv s) : BlockInv (resetEvent s) :=
  { State.resetWith_blockInv (trunc_lt s.cfg.tickW (Config.resetTick s.fresh)) (Config.resetMs s.fresh) with
    structural := resetEvent_structural s
    inbox_agents := hb.inbox_agents }

/-! ### Every agent's step -/

/-- A fetch leaves only agents' steps waiting, and what it takes is one. -/
theorem BlockInv.fetch {s : State} (hb : BlockInv s) :
    BlockInv (fetch s).2 ∧ (fetch s).1.isAgentStep = true := by
  obtain ⟨c, rest, hin, hfetch⟩ | ⟨hnil, hfetch⟩ := fetch_cases s
  · have hagents := hb.inbox_agents
    rw [hin, List.all_cons, Bool.and_eq_true] at hagents
    rw [hfetch]
    exact ⟨{ hb with
      structural := { hb.structural with dec_ok := hb.structural.dec_ok }
      inbox_agents := hagents.2 }, hagents.1⟩
  · rw [hfetch]
    exact ⟨{ hb with structural := { hb.structural with dec_ok := hb.structural.dec_ok } },
      envCmd_isAgentStep _⟩

/-- Whatever an agent's operation does, the invariant of the block stays; the fragments are no agent's. -/
theorem Effect.blockInv {i : Instr} {s t : State} (h : Effect i s t) (hi : agentInstr i = true)
    (hb : BlockInv s) : BlockInv t := by
  have hs := h.structural hb.structural
  cases h with
  | unchanged => exact hb
  | framerRow _ hproc hsel => exact hb.framerTake hproc hsel
  | pend c hproc => exact { hb with structural := hs, emission := .inl hproc }
  | beginFire _ hcode => exact hb.beginFire hcode
  | tick => exact hb.tickEvent
  | edge => exact hb.edgeEvent
  | answer | enable | forgetFrame | mstick => exact { hb with structural := hs }
  | decFire hd =>
    obtain rfl | ⟨r, rfl⟩ := hd
    · cases hi
    · cases r <;> cases hi
  | beginBurst _ _ _ hburst =>
    obtain hsend | ⟨m, n, rfl⟩ := hburst
    · simp only [List.mem_cons, List.not_mem_nil, or_false] at hsend
      obtain rfl | rfl | rfl | rfl := hsend <;> cases hi
    · cases hi
  | arrive _ _ _ hreceive =>
    simp only [List.mem_cons, List.not_mem_nil, or_false] at hreceive
    obtain rfl | rfl | rfl | rfl | rfl := hreceive <;> cases hi
  | decRun | initFramer | initDecoder | initTransmitter | beginEncode | startTimer | stopTimer | setCarrier
  | clearEdgeBuffer | enableCapture => cases hi

/-- Settles O57: the fetch takes an agent's step, which is `RESET` or an agent's operation. -/
theorem agentStepKeepsBlockInv : Obligations.AgentStepKeepsBlockInv := by
  intro s t hb hstep
  obtain ⟨hfetched, hagent⟩ := hb.fetch
  obtain ⟨-, ⟨-, rfl⟩ | ⟨sl, i, hslot, hd, hexec⟩⟩ := step_next hstep
  · exact hfetched.resetEvent
  · rw [hslot] at hagent
    exact (exec_effect hexec).blockInv (agentInstr_of_decode hd hagent) hfetched

end Sys2Proof.Machine
end

section
/-! Who writes the registers (R25, R34, R66, R307, R308): one lemma for each element, read off the effects. A case
that is not named leaves the element as it was. -/

namespace Sys2Proof.Machine

variable {i : Instr} {s t : State}

/-! ### The receiver's side -/

theorem Effect.rxEnabled_writers (h : Effect i s t) : t.rxEnabled ≠ s.rxEnabled → ∃ b, i = .rxSeten b := by
  cases h with
  | enable b => exact fun _ => ⟨b, rfl⟩
  | framerRow _ _ hsel =>
    rw [← Fsm.fire_of_select hsel]
    exact absurd (framerFire_frame s).2.1
  | _ => simp

/-- An operation whose instructions are all among an element's writers. -/
theorem mem_writers {users writers : List Instr} (hi : i ∈ users) (hsub : users ⊆ writers) : i ∈ writers := hsub hi

theorem Effect.frame_writers (h : Effect i s t) : (t.rxCode, t.rxRep, t.rxErr) ≠ (s.rxCode, s.rxRep, s.rxErr) →
    i ∈ [Instr.f6, .rxFire, .fsmFire .framer, .rxResetcode] := by
  cases h with
  | @framerRow _ r _ hi =>
    cases r with
    | f6 => exact fun _ => mem_writers hi (by decide)
    | f1 | f2 | f3 | f4 | f5 => exact absurd rfl
  | forgetFrame => simp
  | _ => simp

theorem Effect.rxLastCount_writers (h : Effect i s t) : t.rxLastCount ≠ s.rxLastCount →
    i ∈ [Instr.f3, .f4, .f5, .f6, .rxFire, .fsmFire .framer] := by
  cases h with
  | @framerRow _ r _ hi =>
    cases r with
    | f3 | f4 | f5 | f6 => exact fun _ => mem_writers hi (by decide)
    | f1 | f2 => exact absurd rfl
  | _ => simp

theorem Effect.rxLastTime_writers (h : Effect i s t) : t.rxLastTime ≠ s.rxLastTime →
    i ∈ [Instr.f3, .f5, .rxFire, .fsmFire .framer] := by
  cases h with
  | @framerRow _ r _ hi =>
    cases r with
    | f3 | f5 => exact fun _ => mem_writers hi (by decide)
    | f1 | f2 | f4 | f6 => exact absurd rfl
  | _ => simp

theorem Effect.rxState_writers (h : Effect i s t) : t.rxState ≠ s.rxState →
    i ∈ [Instr.f1, .f2, .f3, .f4, .f5, .f6, .rxFire, .fsmFire .framer, .fsmInit .framer .own] := by
  cases h with
  | @framerRow _ r _ hi => cases r <;> exact fun _ => mem_writers hi (by decide)
  | initFramer => simp
  | _ => simp

theorem Effect.capEn_writers (h : Effect i s t) : t.capEn ≠ s.capEn →
    i ∈ [Instr.f1, .f2, .f4, .rxFire, .fsmFire .framer] ∨ ∃ b, i = .enableCapture b := by
  cases h with
  | @framerRow _ r _ hi =>
    cases r with
    | f1 | f2 | f4 => exact fun _ => .inl (mem_writers hi (by decide))
    | f3 | f5 | f6 => exact absurd rfl
  | enableCapture b => exact fun _ => .inr ⟨b, rfl⟩
  | _ => simp

/-- Only a capture makes the count larger; the other writers of the buffer empty it (R66). -/
theorem Effect.ecount_rises (h : Effect i s t) : s.ecount < t.ecount → i = .edge := by
  cases h with
  | edge => exact fun _ => rfl
  | @framerRow _ r =>
    cases r with
    | f1 | f6 => exact fun hlt => absurd hlt (Nat.not_lt_zero _)
    | f2 | f3 | f4 | f5 => exact fun hlt => absurd hlt (Nat.lt_irrefl _)
  | _ => simp

theorem Effect.buffer_writers (h : Effect i s t) : (t.ecount, t.ebuf) ≠ (s.ecount, s.ebuf) →
    i ∈ [Instr.edge, .clearEdgeBuffer, .f1, .f6, .rxFire, .fsmFire .framer] := by
  cases h with
  | @framerRow _ r _ hi =>
    cases r with
    | f1 | f6 => exact fun _ => mem_writers hi (by decide)
    | f2 | f3 | f4 | f5 => exact absurd rfl
  | edge | clearEdgeBuffer => simp
  | _ => simp

/-! ### The clocks -/

theorem Effect.ms_writers (h : Effect i s t) : t.ms ≠ s.ms → i = .mstick := by
  cases h with
  | framerRow _ _ hsel =>
    rw [← Fsm.fire_of_select hsel]
    exact absurd (framerFire_frame s).2.2.1
  | mstick => exact fun _ => rfl
  | _ => simp

theorem Effect.tick_writers (h : Effect i s t) : t.tick ≠ s.tick →
    i ∈ [Instr.tick, .startTimer, .f1, .rxFire, .fsmFire .framer, .txFire, .x1, .fsmFire .transmitter] ∨
      ∃ c, i = .txEncode c := by
  cases h with
  | @framerRow _ r _ hi =>
    cases r with
    | f1 => exact fun _ => .inl (mem_writers hi (by decide))
    | f2 | f3 | f4 | f5 | f6 => exact absurd rfl
  | beginFire hi => exact fun _ => .inl (mem_writers hi (by decide))
  | beginEncode c => exact fun _ => .inr ⟨c, rfl⟩
  | tick | startTimer => simp
  | _ => simp

theorem Effect.tickRun_writers (h : Effect i s t) : t.tickRun ≠ s.tickRun →
    i ∈ [Instr.startTimer, .stopTimer, .f1, .f2, .f4, .rxFire, .fsmFire .framer, .txFire, .x1,
      .fsmFire .transmitter] ∨ ∃ c, i = .txEncode c := by
  cases h with
  | @framerRow _ r _ hi =>
    cases r with
    | f1 | f2 | f4 => exact fun _ => .inl (mem_writers hi (by decide))
    | f3 | f5 | f6 => exact absurd rfl
  | beginFire hi => exact fun _ => .inl (mem_writers hi (by decide))
  | beginEncode c => exact fun _ => .inr ⟨c, rfl⟩
  | startTimer | stopTimer => simp
  | _ => simp

/-! ### The transmitter's side -/

theorem Effect.txCode_writers (h : Effect i s t) : t.txCode ≠ s.txCode → i = .tick ∨ ∃ c, i = .txSetcode c := by
  cases h with
  | framerRow _ _ hsel =>
    rw [← Fsm.fire_of_select hsel]
    exact absurd (framerFire_frame s).2.2.2.2.1
  | pend c => exact fun _ => .inr ⟨c, rfl⟩
  | tick => exact fun _ => .inl rfl
  | _ => simp

/-- What starts an emission: a fire of the transmitter, a symbol sent, an encode or a burst by itself. -/
theorem Effect.emission_writers (h : Effect i s t) :
    (t.txProc, t.txSeg, t.txSegStart) ≠ (s.txProc, s.txSeg, s.txSegStart) →
      i ∈ [Instr.tick, .txFire, .x1, .fsmFire .transmitter, .prologue .send, .sym0 .send, .sym1 .send,
        .epilogue .send] ∨ (∃ c, i = .txEncode c) ∨ ∃ on off, i = .txBurst on off := by
  cases h with
  | @framerRow _ r => cases r <;> exact absurd rfl
  | beginFire hi => exact fun _ => .inl (mem_writers hi (by decide))
  | beginEncode c => exact fun _ => .inr (.inl ⟨c, rfl⟩)
  | beginBurst _ _ _ hi =>
    exact fun _ => hi.imp (mem_writers · (by decide)) .inr
  | tick => simp
  | _ => simp

theorem Effect.carrier_writers (h : Effect i s t) : t.carrier ≠ s.carrier →
    i ∈ [Instr.tick, .txFire, .x1, .fsmFire .transmitter, .prologue .send, .sym0 .send, .sym1 .send,
      .epilogue .send] ∨ (∃ b, i = .setCarrier b) ∨ (∃ c, i = .txEncode c) ∨ ∃ on off, i = .txBurst on off := by
  cases h with
  | @framerRow _ r => cases r <;> exact absurd rfl
  | setCarrier b => exact fun _ => .inr (.inl ⟨b, rfl⟩)
  | beginFire hi => exact fun _ => .inl (mem_writers hi (by decide))
  | beginEncode c => exact fun _ => .inr (.inr (.inl ⟨c, rfl⟩))
  | beginBurst _ _ _ hi =>
    exact fun _ => hi.imp (mem_writers · (by decide))
      fun hb => .inr (.inr hb)
  | tick => simp
  | _ => simp

/-! ### The decoder's working registers -/

/-- The decoder's rows and its fire. -/
theorem mem_of_decFire (hi : i = .fsmFire .decoder ∨ ∃ r : DecRow, i = r.instr) :
    i ∈ [Instr.t1, .t2, .t3, .t4, .t5, .t6, .t7, .t8, .t9, .t10, .t11, .fsmFire .decoder] := by
  obtain rfl | ⟨r, rfl⟩ := hi
  · decide
  · cases r <;> decide

theorem Effect.dec_writers (h : Effect i s t) : t.dec ≠ s.dec →
    i ∈ [Instr.t1, .t2, .t3, .t4, .t5, .t6, .t7, .t8, .t9, .t10, .t11, .fsmFire .decoder, .f6, .rxFire,
      .fsmFire .framer] ∨ (∃ n, i = .decRun n) ∨
      i = .fsmInit .decoder .own ∧ t.dec = { s.dec with state := .idle } := by
  cases h with
  | decFire hi => exact fun _ => .inl (mem_writers (mem_of_decFire hi) (by decide))
  | @decRun n => exact fun _ => .inr (.inl ⟨n, rfl⟩)
  | initDecoder => exact fun _ => .inr (.inr ⟨rfl, rfl⟩)
  | @framerRow _ r _ hi =>
    cases r with
    | f6 => exact fun _ => .inl (mem_writers hi (by decide))
    | f1 | f2 | f3 | f4 | f5 => exact absurd rfl
  | _ => simp

/-- Settles O60: the lemmas of this section; `FSM.INIT` writes of the working registers only the state. -/
theorem registersHaveOnlyTheirWriters : Obligations.RegistersHaveOnlyTheirWriters := by
  intro i s t hexec
  have h := exec_effect hexec
  refine ⟨h.rxEnabled_writers, h.frame_writers, h.rxLastCount_writers, h.rxLastTime_writers, h.rxState_writers,
    h.capEn_writers, h.ecount_rises, h.buffer_writers, h.txCode_writers, h.ms_writers, rfl, h.tick_writers,
    h.tickRun_writers, h.carrier_writers, h.emission_writers, fun hne => ?registers, fun hne => ?state⟩
  case registers =>
    obtain hmem | hrun | ⟨-, hinit⟩ := h.dec_writers fun heq => hne (by rw [heq])
    · exact .inl hmem
    · exact .inr hrun
    · exact absurd (by rw [hinit]) hne
  case state =>
    obtain hmem | hrun | ⟨rfl, -⟩ := h.dec_writers fun heq => hne (by rw [heq])
    · exact .inl (mem_writers hmem (by decide))
    · exact .inr hrun
    · exact .inl (by decide)

end Sys2Proof.Machine
end

section
/-! The waveform of a command, segment by segment (R236): the order of its counts and its length. -/

namespace Sys2Proof.Machine

/-! ### Lists of pairs -/

/-- In a list made of pairs, pair `k` stands at the places `2 * k` and `2 * k + 1`. -/
theorem flatMap_pair_getElem? {α : Type} (a b : Nat → α) {n k : Nat} (hk : k < n) :
    ((List.range n).flatMap fun i => [a i, b i])[2 * k]? = some (a k) ∧
      ((List.range n).flatMap fun i => [a i, b i])[2 * k + 1]? = some (b k) := by
  induction n with
  | zero => omega
  | succ n ih =>
    have hlen : ((List.range n).flatMap fun i => [a i, b i]).length = 2 * n := by
      simp [List.length_flatMap, Nat.mul_comm]
    rw [List.range_succ, List.flatMap_append]
    by_cases hlast : k = n
    · subst hlast
      rw [List.getElem?_append_right (by omega), List.getElem?_append_right (by omega), hlen]
      simp
    · rw [List.getElem?_append_left (by omega), List.getElem?_append_left (by omega)]
      exact ih (by omega)

/-- A sum of two values chosen by a test counts how often the test fails. -/
theorem sum_map_ite (p : Nat → Bool) (x y : Nat) (l : List Nat) :
    (l.map fun i => if p i then x else y).sum
      = (l.filter fun i => !p i).length * y + (l.length - (l.filter fun i => !p i).length) * x := by
  induction l with
  | nil => simp
  | cons i l ih =>
    have hle : (l.filter fun i => !p i).length ≤ l.length := List.length_filter_le _ l
    cases hp : p i
    · simp only [List.map_cons, List.sum_cons, ih, hp, List.filter_cons, Bool.not_false, if_true, List.length_cons,
        Bool.false_eq_true, if_false, Nat.add_sub_add_right]
      ring
    · simp only [List.map_cons, List.sum_cons, ih, hp, List.filter_cons, Bool.not_true, if_true, List.length_cons,
        Bool.false_eq_true, if_false, Nat.succ_sub hle, Nat.succ_eq_add_one]
      ring

/-! ### The data bits -/

/-- The segments of bit `k` on the wire (R90, R92). -/
theorem bitSegments_eq (cfg : Params) (b : Bool) : bitSegments cfg b =
    [(true, if b then cfg.txSym1On else cfg.txSym0On), (false, if b then cfg.txSym1Off else cfg.txSym0Off)] := by
  cases b <;> rfl

/-- The segments of the 32 data bits. -/
def dataSegments (cfg : Params) (c : BitVec 32) : List Segment :=
  (List.range frameBits).flatMap fun k => bitSegments cfg (wireBit c k)

theorem wave_eq (cfg : Params) (c : BitVec 32) : wave cfg c =
    (true, cfg.txPrologueOn) :: (false, cfg.txPrologueOff) ::
      (dataSegments cfg c ++ [(true, cfg.txEpilogueOn), (false, cfg.txEpilogueOff)]) := rfl

theorem dataSegments_length (cfg : Params) (c : BitVec 32) : (dataSegments cfg c).length = 64 := by
  simp [dataSegments, List.length_flatMap, bitSegments_length, frameBits]

/-- The pair of segment `2 * k` of the data is the bit's ON and OFF counts. -/
theorem dataSegments_getElem? (cfg : Params) (c : BitVec 32) {k : Nat} (hk : k < 32) :
    (dataSegments cfg c)[2 * k]? = some (true, if wireBit c k then cfg.txSym1On else cfg.txSym0On) ∧
      (dataSegments cfg c)[2 * k + 1]? = some (false, if wireBit c k then cfg.txSym1Off else cfg.txSym0Off) := by
  simp only [dataSegments, bitSegments_eq]
  exact flatMap_pair_getElem? _ _ hk

/-- The bits on the wire are the bits of the command from the most significant on, so as many of them are 0. -/
theorem dataSegments_ticks (cfg : Params) (c : BitVec 32) : waveTicks (dataSegments cfg c) =
    zeroBits c * (cfg.txSym0On + cfg.txSym0Off) + (32 - zeroBits c) * (cfg.txSym1On + cfg.txSym1Off) := by
  have hbit : ∀ k, waveTicks (bitSegments cfg (wireBit c k)) =
      if wireBit c k then cfg.txSym1On + cfg.txSym1Off else cfg.txSym0On + cfg.txSym0Off := by
    intro k; cases wireBit c k <;> rfl
  have hreverse : (List.range 32).map (fun k => if wireBit c k then cfg.txSym1On + cfg.txSym1Off
        else cfg.txSym0On + cfg.txSym0Off) =
      ((List.range 32).map fun i => if c.getLsbD i then cfg.txSym1On + cfg.txSym1Off
        else cfg.txSym0On + cfg.txSym0Off).reverse := rfl
  calc waveTicks (dataSegments cfg c)
      = ((List.range 32).map fun k => waveTicks (bitSegments cfg (wireBit c k))).sum := by
        simp only [dataSegments, waveTicks, List.flatMap_def, List.map_flatten, List.sum_flatten, List.map_map]; rfl
    _ = ((List.range 32).map fun i => if c.getLsbD i then cfg.txSym1On + cfg.txSym1Off
          else cfg.txSym0On + cfg.txSym0Off).sum := by simp only [hbit, hreverse, List.sum_reverse]
    _ = _ := sum_map_ite _ _ _ _

/-! ### The whole waveform -/

theorem wave_length (cfg : Params) (c : BitVec 32) : (wave cfg c).length = 68 := by
  rw [wave_eq]
  simp [dataSegments_length]

theorem wave_ticks (cfg : Params) (c : BitVec 32) : waveTicks (wave cfg c) = dur cfg c := by
  simp only [wave_eq, waveTicks_cons, waveTicks_append, dataSegments_ticks, dur, waveTicks_nil]
  ring

/-- The segments of data bit `k` in the waveform. -/
theorem wave_data (cfg : Params) (c : BitVec 32) {k : Nat} (hk : k < 32) :
    (wave cfg c)[2 + 2 * k]? = some (true, if wireBit c k then cfg.txSym1On else cfg.txSym0On) ∧
      (wave cfg c)[3 + 2 * k]? = some (false, if wireBit c k then cfg.txSym1Off else cfg.txSym0Off) := by
  obtain ⟨hon, hoff⟩ := dataSegments_getElem? cfg c hk
  have hlen := dataSegments_length cfg c
  rw [wave_eq, show 2 + 2 * k = 2 * k + 1 + 1 by omega, show 3 + 2 * k = 2 * k + 1 + 1 + 1 by omega]
  simp only [List.getElem?_cons_succ]
  rw [List.getElem?_append_left (by omega), List.getElem?_append_left (by omega)]
  exact ⟨hon, hoff⟩

/-- The last two segments are the epilogue's. -/
theorem wave_epilogue (cfg : Params) (c : BitVec 32) :
    (wave cfg c)[66]? = some (true, cfg.txEpilogueOn) ∧ (wave cfg c)[67]? = some (false, cfg.txEpilogueOff) := by
  have hlen := dataSegments_length cfg c
  rw [wave_eq]
  simp only [List.getElem?_cons_succ]
  rw [List.getElem?_append_right (by omega), List.getElem?_append_right (by omega), hlen]
  exact ⟨rfl, rfl⟩

/-- ON and OFF in turn: prologue, data and epilogue are pairs. -/
theorem wave_level (cfg : Params) (c : BitVec 32) {j : Nat} (hj : j < 68) :
    ((wave cfg c)[j]?).map Prod.fst = some (decide (j % 2 = 0)) := by
  obtain hlo | ⟨k, hk, hdata⟩ | hhi : j < 2 ∨ (∃ k, k < 32 ∧ (j = 2 + 2 * k ∨ j = 3 + 2 * k)) ∨ 66 ≤ j := by
    by_cases h1 : j < 2
    · exact .inl h1
    · by_cases h2 : j < 66
      · exact .inr (.inl ⟨(j - 2) / 2, by omega, by omega⟩)
      · exact .inr (.inr (by omega))
  · interval_cases j <;> rfl
  · obtain ⟨hon, hoff⟩ := wave_data cfg c hk
    obtain rfl | rfl := hdata
    · rw [hon]
      exact congrArg some (decide_eq_true (by omega)).symm
    · rw [hoff]
      exact congrArg some (decide_eq_false (by omega)).symm
  · obtain ⟨hon, hoff⟩ := wave_epilogue cfg c
    obtain rfl | rfl : j = 66 ∨ j = 67 := by omega
    · rw [hon]; rfl
    · rw [hoff]; rfl

/-- Settles O44: `wireBit` is the bit's place in the command by definition. -/
theorem waveformShape : Obligations.WaveformShape := fun cfg c =>
  ⟨wave_length cfg c, wave_ticks cfg c, fun _ => wave_level cfg c, rfl, rfl, fun _ => wave_data cfg c,
    (wave_epilogue cfg c).1, (wave_epilogue cfg c).2⟩

end Sys2Proof.Machine
end

section
/-! An emission, `TICK` by `TICK` (R237): from the start of a procedure to its end the carrier is the waveform's level.
`TX.FIRE`, `TX.ENCODE` and `TX.BURST` are three uses (R233 to R235, R241). -/

namespace Sys2Proof.Machine

theorem ticks_add (m n : Nat) (s : State) : ticks (m + n) s = ticks n (ticks m s) := by
  rw [Nat.add_comm]
  exact Function.iterate_add_apply tickEvent n m s

/-- The instruction `TICK` goes on with a run of `TICK` steps. -/
theorem exec_tick_ticks (j : Nat) (s : State) : exec .tick (ticks j s) = .next (ticks (j + 1) s) := by
  rw [ticks_succ]; rfl

/-! ### The segment at a tick -/

/-- Every tick before the end of a waveform lies in one of its segments. -/
theorem exists_segment : ∀ {segs : List Segment} {j : Nat}, j < waveTicks segs →
    ∃ i l n r, segs[i]? = some (l, n) ∧ r < n ∧ j = segStart segs i + r
  | [], j, h => by simp at h
  | (l, n) :: rest, j, h => by
    by_cases hj : j < n
    · exact ⟨0, l, n, j, rfl, hj, by simp⟩
    · rw [waveTicks_cons] at h
      obtain ⟨i, l', n', r, hseg, hr, hsum⟩ := exists_segment (segs := rest) (j := j - n) (by simp only at h; omega)
      have hstart : segStart ((l, n) :: rest) (i + 1) = n + segStart rest i := rfl
      exact ⟨i + 1, l', n', r, hseg, hr, by omega⟩

/-! ### A whole emission -/

section Emission

variable {s : State} {k : Nat} {l₀ : Bool} {n₀ : Nat}

/-- The counter runs and every segment of the procedure in progress has a count of the counter's width. -/
def Emitting (s : State) : Prop :=
  s.tickRun = true ∧ ∀ sg ∈ procSegments s.cfg s.txProc, 1 ≤ sg.2 ∧ sg.2 < tickModulus s.cfg.tickW

/-- Inside a segment each `TICK` moves one tick on. -/
theorem ticks_within (he : Emitting s) {i n : Nat} {l : Bool}
    (hseg : (procSegments s.cfg s.txProc)[i]? = some (l, n)) :
    ∀ {r : Nat}, r < n → ticks r (emissionAt s k i 0 l) = emissionAt s k i r l
  | 0, _ => rfl
  | r + 1, hr => by
    rw [ticks_succ, ticks_within he hseg (by omega)]
    exact tickEvent_within he.1 hseg (he.2 _ (List.mem_of_getElem? hseg)).2 hr

/-- A segment lasts as many `TICK` steps as its count; then the next one begins, or the procedure ends. -/
theorem ticks_segment (he : Emitting s) {i n : Nat} {l : Bool}
    (hseg : (procSegments s.cfg s.txProc)[i]? = some (l, n)) :
    (∀ l' n', (procSegments s.cfg s.txProc)[i + 1]? = some (l', n') →
      ticks n (emissionAt s k i 0 l) = emissionAt s k (i + 1) 0 l') ∧
    ((procSegments s.cfg s.txProc)[i + 1]? = none →
      ticks n (emissionAt s k i 0 l) = endProc (emissionAt s k i n l)) := by
  obtain ⟨hpos, hlt⟩ := he.2 _ (List.mem_of_getElem? hseg)
  have hrun : ticks n (emissionAt s k i 0 l) = tickEvent (emissionAt s k i (n - 1) l) := by
    rw [← ticks_within he hseg (Nat.sub_lt hpos Nat.one_pos), ← ticks_succ, Nat.sub_add_cancel hpos]
  rw [hrun]
  exact tickEvent_last he.1 hseg hlt hpos

/-- Segment `i` begins `S(i)` ticks after the start (R236). -/
theorem ticks_segStart (he : Emitting s) (h₀ : (procSegments s.cfg s.txProc)[0]? = some (l₀, n₀)) :
    ∀ {i n : Nat} {l : Bool}, (procSegments s.cfg s.txProc)[i]? = some (l, n) →
      ticks (segStart (procSegments s.cfg s.txProc) i) (emissionAt s k 0 0 l₀) = emissionAt s k i 0 l
  | 0, n, l, hseg => by
    cases h₀.symm.trans hseg
    rfl
  | i + 1, n, l, hseg => by
    obtain ⟨⟨l', n'⟩, hprev⟩ : ∃ sg, (procSegments s.cfg s.txProc)[i]? = some sg :=
      ⟨_, List.getElem?_eq_getElem (by have := (List.getElem?_eq_some_iff.mp hseg).1; omega)⟩
    rw [segStart_succ hprev, ticks_add, ticks_segStart he h₀ hprev]
    exact (ticks_segment he hprev).1 l n hseg

/-- Before the end of the waveform the carrier is its level, the counter has counted on, and nothing else has changed
but the segment registers. -/
theorem ticks_emission (he : Emitting s) (h₀ : (procSegments s.cfg s.txProc)[0]? = some (l₀, n₀)) {j : Nat}
    (hj : j < waveTicks (procSegments s.cfg s.txProc)) :
    ticks j (emissionAt s k 0 0 l₀) = { s with
      tick := tickOf s.cfg.tickW (k + j), carrier := levelAt (procSegments s.cfg s.txProc) j,
      txSeg := (ticks j (emissionAt s k 0 0 l₀)).txSeg,
      txSegStart := (ticks j (emissionAt s k 0 0 l₀)).txSegStart } := by
  obtain ⟨i, l, n, r, hseg, hr, rfl⟩ := exists_segment hj
  have hat : ticks (segStart (procSegments s.cfg s.txProc) i + r) (emissionAt s k 0 0 l₀) = emissionAt s k i r l := by
    rw [ticks_add, ticks_segStart he h₀ hseg, ticks_within he hseg hr]
  rw [hat, levelAt_segment hseg hr, ← Nat.add_assoc]
  rfl

/-- At the end of the waveform the procedure ends, and the counter runs on. -/
theorem ticks_emission_end (he : Emitting s) (h₀ : (procSegments s.cfg s.txProc)[0]? = some (l₀, n₀)) :
    ticks (waveTicks (procSegments s.cfg s.txProc)) (emissionAt s k 0 0 l₀) =
      endProc { s with tick := tickOf s.cfg.tickW (k + waveTicks (procSegments s.cfg s.txProc)) } := by
  obtain ⟨i, hlen⟩ : ∃ i, (procSegments s.cfg s.txProc).length = i + 1 :=
    ⟨_, (Nat.sub_add_cancel (Nat.pos_of_ne_zero fun h => by rw [List.length_eq_zero_iff.mp h] at h₀; cases h₀)).symm⟩
  obtain ⟨⟨l, n⟩, hseg⟩ : ∃ sg, (procSegments s.cfg s.txProc)[i]? = some sg :=
    ⟨_, List.getElem?_eq_getElem (by omega)⟩
  have hnone : (procSegments s.cfg s.txProc)[i + 1]? = none := List.getElem?_eq_none (by omega)
  have htotal : waveTicks (procSegments s.cfg s.txProc) = segStart (procSegments s.cfg s.txProc) i + n := by
    rw [← segStart_length, hlen, segStart_succ hseg]
  rw [htotal, ticks_add, ticks_segStart he h₀ hseg, (ticks_segment he hseg).2 hnone, ← Nat.add_assoc]
  unfold endProc
  cases hproc : s.txProc <;> simp only [emissionAt, hproc]

end Emission

/-! ### `TX.FIRE` and `TX.ENCODE` -/

@[simp] theorem tickOf_zero (w : TickWidth) : tickOf w 0 = 0 := by cases w <;> rfl

/-- The encode procedure restarts the counter and begins with segment 0, an ON segment (R234). -/
theorem beginEncode_eq_emissionAt (p : TxProc) (s : State) :
    beginEncode p s = emissionAt { s with tickRun := true, txProc := p } 0 0 0 true := by
  simp only [emissionAt, segStart_zero, Nat.add_zero, tickOf_zero]
  rfl

/-- The procedures that send a command emit its waveform. -/
theorem emitting_wave {s : State} {p : TxProc} {c : BitVec 32} (hp : paramsOk s.cfg = true)
    (hwave : procSegments s.cfg p = wave s.cfg c) : Emitting { s with tickRun := true, txProc := p } :=
  ⟨rfl, fun sg hsg => wave_counts hp c sg (hwave ▸ hsg)⟩

/-- The emission of a command from its start: the waveform's level at each tick before `Dur(c)`, the end of the
procedure at `Dur(c)`. -/
theorem ticks_beginEncode {s : State} {p : TxProc} {c : BitVec 32} (hp : paramsOk s.cfg = true)
    (hwave : procSegments s.cfg p = wave s.cfg c) :
    (∀ j, j < dur s.cfg c → ticks j (beginEncode p s) = { s with
      tick := tickOf s.cfg.tickW j, tickRun := true, carrier := levelAt (wave s.cfg c) j, txProc := p,
      txSeg := (ticks j (beginEncode p s)).txSeg, txSegStart := (ticks j (beginEncode p s)).txSegStart }) ∧
    ticks (dur s.cfg c) (beginEncode p s) =
      endProc { s with tick := tickOf s.cfg.tickW (dur s.cfg c), tickRun := true, txProc := p } := by
  have he := emitting_wave hp hwave
  have h₀ : (procSegments s.cfg p)[0]? = some (true, s.cfg.txPrologueOn) := by rw [hwave, wave_head]
  have hlast := ticks_emission_end (k := 0) he h₀
  simp only [hwave, wave_ticks, Nat.zero_add] at hlast
  rw [beginEncode_eq_emissionAt]
  refine ⟨fun j hj => ?_, hlast⟩
  have hrun := ticks_emission (k := 0) he h₀ (j := j) (by simp only [hwave, wave_ticks]; exact hj)
  simp only [hwave, Nat.zero_add] at hrun
  exact hrun

/-- Outside an emission, with a code pending, the three ways to fire the transmitter start the same emission. -/
theorem exec_txFire_pending {s : State} (hproc : s.txProc = .idle) (hcode : s.txCode ≠ 0) :
    exec .txFire s = .next (beginEncode (.fire s.txCode) s) ∧ exec .x1 s = .next (beginEncode (.fire s.txCode) s) ∧
      exec (.fsmFire .transmitter) s = .next (beginEncode (.fire s.txCode) s) := by
  have hfire : txFsm.fire s = beginEncode (.fire s.txCode) s := by rw [txFire_eq, if_neg hcode]
  have hrow : txFsm.tryRow .x1 s = beginEncode (.fire s.txCode) s := (txTryRow_eq s).trans hfire
  rw [← hfire]
  refine ⟨hostSide_idle hproc _, ?_, hostSide_idle hproc _⟩
  rw [hfire, ← hrow]
  exact hostSide_idle hproc _

/-- Settles O40: the emission of the pending code, whose end clears it. -/
theorem txFireEmitsTheWaveform : Obligations.TxFireEmitsTheWaveform := by
  rintro s c hp hproc rfl hcode
  obtain ⟨hfire, hrow, hengine⟩ := exec_txFire_pending hproc hcode
  obtain ⟨hrun, hlast⟩ := ticks_beginEncode (p := .fire s.txCode) (c := s.txCode) hp rfl
  exact ⟨_, hfire, hrow, hengine, fun j => exec_tick_ticks j _, hrun, hlast⟩

/-- Settles O42: the same emission; its end leaves the pending code, since the procedure is no `TX.FIRE`. -/
theorem txEncodeEmitsTheWaveform : Obligations.TxEncodeEmitsTheWaveform := by
  intro s c hp hproc
  obtain ⟨hrun, hlast⟩ := ticks_beginEncode (p := .encode c) (c := c) hp rfl
  exact ⟨_, hostSide_idle hproc _, fun j => exec_tick_ticks j _, hrun, hlast⟩

/-! ### `TX.BURST` -/

/-- A burst begins at the present tick, which is a value of the counter (R235). -/
theorem beginProc_eq_emissionAt (p : TxProc) {s : State} (htick : s.tick.toNat < tickModulus s.cfg.tickW) :
    beginProc p s = emissionAt { s with txProc := p } s.tick.toNat 0 0 true := by
  simp only [emissionAt, segStart_zero, Nat.add_zero, tickOf_of_lt _ _ htick]
  rfl

/-- The level of a burst before its end. -/
theorem levelAt_burst {on off j : Nat} (hj : j < on + off) :
    levelAt (burstSegments on off) j = decide (j < on) := by
  by_cases h : j < on
  · simp [burstSegments, levelAt, h]
  · simp [burstSegments, levelAt, h, show j - on < off by omega]

/-- A count that is a nonzero word of the counter's width is one that R235 allows. -/
theorem burstCountOk_iff (s : State) (n : BitVec 32) :
    burstCountOk s n = true ↔ n ≠ 0 ∧ n.toNat < tickModulus s.cfg.tickW := by
  rw [burstCountOk, countOk_iff, Nat.one_le_iff_ne_zero]
  exact and_congr_left fun _ => not_congr (BitVec.toNat_eq (y := 0)).symm

/-- Settles O43: the two segments of a burst, and the range of its counts. -/
theorem txBurstTiming : Obligations.TxBurstTiming := by
  intro s on off hproc
  have hexec : exec (.txBurst on off) s = hostSide s (if burstCountOk s on = true ∧ burstCountOk s off = true then
      .next (beginProc (.burst on.toNat off.toNat) s) else .refused .burstOutOfRange) := rfl
  have hrange : (burstCountOk s on = true ∧ burstCountOk s off = true) ↔
      on ≠ 0 ∧ off ≠ 0 ∧ on.toNat < tickModulus s.cfg.tickW ∧ off.toNat < tickModulus s.cfg.tickW := by
    rw [burstCountOk_iff, burstCountOk_iff]; tauto
  rw [hexec, hostSide_idle hproc]
  refine ⟨fun hcounts hrun htick => ?_, fun hcounts => if_neg (mt hrange.mp hcounts)⟩
  obtain ⟨hon, hoff⟩ := hrange.mpr hcounts
  have he : Emitting { s with txProc := .burst on.toNat off.toNat } := by
    refine ⟨hrun, fun sg hsg => ?_⟩
    obtain rfl | rfl : sg = (true, on.toNat) ∨ sg = (false, off.toNat) := by
      simpa [procSegments, burstSegments] using hsg
    · exact (countOk_iff _ _).mp hon
    · exact (countOk_iff _ _).mp hoff
  refine ⟨_, if_pos ⟨hon, hoff⟩, fun j => exec_tick_ticks j _, fun j hj => ?_, ?_⟩ <;>
    rw [beginProc_eq_emissionAt _ htick]
  · rw [← levelAt_burst hj]
    exact ticks_emission he rfl hj
  · exact ticks_emission_end he rfl

end Sys2Proof.Machine
end

section
/-! Runs of the decoder (R151 to R175): the drive loop as a number of fires, the shapes of a result, and what a run
over a transmitted frame, a repetition and a buffer without a lead gives. -/

namespace Sys2Proof.Machine

/-! ### The drive loop -/

/-- With enough fuel the drive loop is some number of fires, fewer than the edges, each with two edges remaining. -/
theorem decDrive_eq_iterate (cfg : Params) (rd : Nat → Tick) : ∀ (fuel : Nat) {d : Dec}, d.rem ≤ fuel + 1 →
    ∃ k, k ≤ d.rem - 1 ∧ decDrive cfg rd fuel d = (decFsm cfg rd).fire^[k] d ∧
      ∀ j, j < k → 2 ≤ ((decFsm cfg rd).fire^[j] d).rem
  | 0, d, _ => ⟨0, Nat.zero_le _, rfl, fun j hj => absurd hj (Nat.not_lt_zero j)⟩
  | fuel + 1, d, hf => by
    by_cases hfew : d.rem < 2
    · exact ⟨0, Nat.zero_le _, decDrive_done cfg rd _ hfew, fun j hj => absurd hj (Nat.not_lt_zero j)⟩
    · have h2 : 2 ≤ d.rem := by omega
      have hless := (decFire_edges cfg rd d h2).1
      obtain ⟨k, hk, hrun, hbefore⟩ := decDrive_eq_iterate cfg rd fuel (d := (decFsm cfg rd).fire d) (by omega)
      refine ⟨k + 1, by omega, (decDrive_step cfg rd fuel h2).trans hrun, fun j hj => ?_⟩
      cases j with
      | zero => exact h2
      | succ j => exact hbefore j (by omega)

/-- Settles O26: a run has fuel for one fire an edge, and at most one edge allows no fire. -/
theorem decRunIsTheDriveLoop : Obligations.DecRunIsTheDriveLoop := by
  intro s n hproc hn fire
  obtain ⟨k, hk, hrun, hbefore⟩ :=
    decDrive_eq_iterate s.cfg (edgeAt s) n.toNat (d := decStart n.toNat) (Nat.le_succ _)
  have hend : (decDrive s.cfg (edgeAt s) n.toNat (decStart n.toNat)).rem < 2 :=
    decDrive_rem s.cfg (edgeAt s) n.toNat (Nat.le_succ _)
  have hexec := exec_decRun hproc hn
  refine ⟨k, hk, hrun ▸ hend, hbefore, ?_, fun hfew => ?_⟩
  · rw [decRun, hrun] at hexec
    exact hexec
  · rw [decRun, decDrive_done _ _ _ (show (decStart n.toNat).rem < 2 from Nat.lt_succ_of_le hfew)] at hexec
    exact hexec

/-- Consistent registers give a command, a repetition or an error (R169, R172). -/
theorem decFrame_shapes {d : Dec} (hd : DecOk d) :
    (∃ c, c ≠ 0 ∧ decFrame d = .frame c false false) ∨ decFrame d = .frame 0 true false ∨
      decFrame d = .frame 0 false true := by
  cases hrep : d.rep with
  | true => exact .inr (.inl (by simp [decFrame, errFlag, hrep, hd.rep_code hrep]))
  | false =>
    by_cases hcode : d.code = 0
    · exact .inr (.inr (by simp [decFrame, errFlag, hrep, hcode]))
    · exact .inl ⟨d.code, hcode, by simpa [decFrame, errFlag, hrep] using hcode⟩

/-- Settles O28: the registers at the end of a run are consistent. -/
theorem decodedFrameShapes : Obligations.DecodedFrameShapes :=
  fun _ _ hproc hn => ⟨_, exec_decRun hproc hn, decFrame_shapes (decRun_ok _ _ hn)⟩

/-- The frame of a run is that of the registers it ends in. -/
theorem exec_decRun_frame {s : State} {n : BitVec 32} {d : Dec} {r : Res} (hproc : s.txProc = .idle)
    (hn : n.toNat ≤ edgeCap) (hrun : decRun s.cfg (edgeAt s) n.toNat = d) (hframe : decFrame d = r) :
    ∃ t, exec (.decRun n) s = .next t ∧ t.res = r :=
  ⟨_, exec_decRun hproc hn, (congrArg decFrame hrun).trans hframe⟩

/-! ### A repetition, and no lead -/

/-- A lead and a repetition gap end in `SYMBOL_SILENCE` with no bit remaining, where a further edge ends the run. -/
theorem decRun_repetition {cfg : Params} {rd : Nat → Tick} {n : Nat} (hn : 3 ≤ n)
    (hlead : inW (tickSub cfg.tickW (rd 1) (rd 0)) cfg.wLeadOn = true)
    (hoff : ¬ inW (tickSub cfg.tickW (rd 2) (rd 1)) cfg.wLeadOff = true)
    (hgap : inW (tickSub cfg.tickW (rd 2) (rd 1)) cfg.wRepOff = true) :
    (decRun cfg rd n).code = 0 ∧ (decRun cfg rd n).rep = true := by
  have hinit : (decFsm cfg rd).fire (decStart n) = ⟨.init, 1, n - 1, 0, 0, false⟩ := by
    rw [decFire_idle cfg rd _ rfl]
    exact if_pos hlead
  have hrep : (decFsm cfg rd).fire ⟨.init, 1, n - 1, 0, 0, false⟩ = ⟨.symbolSilence, 2, n - 1 - 1, 0, 0, true⟩ := by
    rw [decFire_init cfg rd _ rfl]
    exact (if_neg hoff).trans (if_pos hgap)
  have hrun : decRun cfg rd n = decDrive cfg rd n ⟨.symbolSilence, 2, n - 1 - 1, 0, 0, true⟩ := by
    rw [decRun, decDrive_fire cfg rd (Nat.le_succ n) (by simp only [decStart]; omega), hinit,
      decDrive_fire cfg rd (by simp only; omega) (by simp only; omega), hrep]
  by_cases hfew : n - 1 - 1 < 2
  · rw [hrun, decDrive_done cfg rd n (by exact hfew)]
    exact ⟨rfl, rfl⟩
  · have hend : (decFsm cfg rd).fire ⟨.symbolSilence, 2, n - 1 - 1, 0, 0, true⟩ = ⟨.idle, 2, 0, 0, 0, true⟩ :=
      decFire_silence cfg rd _ rfl
    rw [hrun, decDrive_fire cfg rd (by simp only; omega) (by simp only; omega), hend,
      decDrive_done cfg rd n Nat.two_pos]
    exact ⟨rfl, rfl⟩

/-- Settles O30: by `decRun_repetition`, whatever entries follow. -/
theorem repetitionGapDecodesAsRepetition : Obligations.RepetitionGapDecodesAsRepetition := by
  intro s n hproc h3 hn hlo hhi hoff hgaplo hgaphi
  obtain ⟨hcode, hrep⟩ := decRun_repetition (cfg := s.cfg) (rd := edgeAt s) h3 ((inW_iff _ _).mpr ⟨hlo, hhi⟩)
    (mt (inW_iff _ _).mp hoff) ((inW_iff _ _).mpr ⟨hgaplo, hgaphi⟩)
  exact exec_decRun_frame hproc hn rfl (by simp [decFrame, errFlag, hcode, hrep])

/-- A run that is still looking for a lead: in `IDLE` at an even index, nothing decoded. -/
structure Searching (n : Nat) (d : Dec) : Prop where
  idle : d.state = .idle
  code_zero : d.code = 0
  no_rep : d.rep = false
  even_pos : d.pos % 2 = 0
  edges_eq : d.pos + d.rem = n

/-- Without a lead at the even indices every fire takes T2 and goes on searching. -/
theorem Searching.fire {cfg : Params} {rd : Nat → Tick} {n : Nat} {d : Dec} (hd : Searching n d) (h2 : 2 ≤ d.rem)
    (hnolead : ∀ j, 2 * j + 1 < n → ¬ inW (tickSub cfg.tickW (rd (2 * j + 1)) (rd (2 * j))) cfg.wLeadOn = true) :
    Searching n ((decFsm cfg rd).fire d) := by
  obtain ⟨hidle, hcode, hrep, heven, hedges⟩ := hd
  have hpos : 2 * (d.pos / 2) = d.pos := by omega
  have hlead := hnolead (d.pos / 2) (by omega)
  rw [hpos] at hlead
  rw [decFire_idle cfg rd d hidle, measured, if_neg hlead]
  exact ⟨rfl, hcode, hrep, by simp only; omega, by simp only; omega⟩

/-- Settles O31: a run that starts searching ends searching. -/
theorem noLeadDecodesAsError : Obligations.NoLeadDecodesAsError := by
  intro s n hproc hn hnolead
  have hsearch : Searching n.toNat (decRun s.cfg (edgeAt s) n.toNat) :=
    decDrive_induct s.cfg (edgeAt s) (Searching n.toNat)
      (fun d h2 hd => hd.fire h2 fun j hj => mt (inW_iff _ _).mp (hnolead j hj)) n.toNat
      ⟨rfl, rfl, rfl, rfl, Nat.zero_add _⟩
  exact exec_decRun_frame hproc hn rfl (by simp [decFrame, errFlag, hsearch.code_zero, hsearch.no_rep])

/-! ### A transmitted frame -/

/-- The interval between two edges of the waveform is the count of the segment between them, whatever the starting
tick is. -/
theorem edgeStamp_interval {cfg : Params} {c : BitVec 32} (hp : paramsOk cfg = true) (k : Nat) {j n : Nat} {l : Bool}
    (hseg : (wave cfg c)[j]? = some (l, n)) :
    (tickSub cfg.tickW (edgeStamp cfg c k (j + 1)) (edgeStamp cfg c k j)).toNat = n := by
  rw [edgeStamp, edgeStamp, segStart_succ hseg, ← Nat.add_assoc]
  exact tickSub_tickOf _ _ _ (wave_counts hp c _ (List.mem_of_getElem? hseg)).2

/-- The working registers after the lead and `i` data bits: the code holds the `i` uppermost bits of the command. -/
def afterBits (c : BitVec 32) (i : Nat) : Dec where
  state := .symbolSilence
  pos := 2 + 2 * i
  rem := 65 - 2 * i
  code := c >>> (32 - i)
  bits := 32 - i
  rep := false

/-- The working registers after the ON part of data bit `i`. -/
def insideBit (c : BitVec 32) (i : Nat) : Dec where
  state := .symbolPulse
  pos := 3 + 2 * i
  rem := 64 - 2 * i
  code := c >>> (32 - i)
  bits := 32 - i
  rep := false

section Transmitted

variable {cfg : Params} {c : BitVec 32} {k : Nat} {rd : Nat → Tick}

/-- The buffer holds the first 67 edges of the waveform of `c` from tick `k`. -/
def HoldsWave (cfg : Params) (c : BitVec 32) (k : Nat) (rd : Nat → Tick) : Prop :=
  ∀ j, j < edgeCap → rd j = edgeStamp cfg c k j

/-- A fire over the waveform measures a segment's count. -/
theorem inW_interval (hp : paramsOk cfg = true) (hrd : HoldsWave cfg c k rd) {j n : Nat} {l : Bool} {w : Window}
    (hj : j < 66) (hseg : (wave cfg c)[j]? = some (l, n)) :
    inW (tickSub cfg.tickW (rd (j + 1)) (rd j)) w = true ↔ w.lo ≤ n ∧ n ≤ w.hi := by
  rw [hrd j (hj.trans (by decide)), hrd (j + 1) (Nat.succ_lt_succ hj), inW_iff, edgeStamp_interval hp k hseg]

/-- The ON part of the prologue is a lead. -/
theorem decFire_lead (hp : paramsOk cfg = true) (hrd : HoldsWave cfg c k rd) :
    (decFsm cfg rd).fire (decStart 67) = ⟨.init, 1, 66, 0, 0, false⟩ := by
  obtain ⟨-, -, hlead, -⟩ := (paramsOk_iff cfg).mp hp
  rw [decFire_idle cfg rd _ rfl]
  exact if_pos ((inW_interval hp hrd (by decide) (wave_head cfg c)).mpr hlead)

/-- Its OFF part announces a command, with 32 bits to come. -/
theorem decFire_leadOff (hp : paramsOk cfg = true) (hrd : HoldsWave cfg c k rd) :
    (decFsm cfg rd).fire ⟨.init, 1, 66, 0, 0, false⟩ = afterBits c 0 := by
  obtain ⟨-, -, -, hoff, -⟩ := (paramsOk_iff cfg).mp hp
  have hcode : c >>> (32 - 0) = 0 := BitVec.ushiftRight_eq_zero (Nat.le_refl 32)
  rw [decFire_init cfg rd _ rfl, afterBits, hcode]
  exact if_pos ((inW_interval (j := 1) hp hrd (by decide) rfl).mpr hoff)

/-- The ON part of a data bit is accepted by T7, for a 0 and for a 1. -/
theorem decFire_bitOn (hp : paramsOk cfg = true) (hrd : HoldsWave cfg c k rd) {i : Nat} (hi : i < 32) :
    (decFsm cfg rd).fire (afterBits c i) = insideBit c i := by
  obtain ⟨-, -, -, -, hsym0, hsym1, -⟩ := (paramsOk_iff cfg).mp hp
  have hbits : ¬ (afterBits c i).bits = 0 := by simp only [afterBits]; omega
  have hon : inW (measured cfg rd (afterBits c i)) cfg.wBitOn = true := by
    refine (inW_interval hp hrd (by omega) (wave_data cfg c hi).1).mpr ?_
    split
    · exact hsym1
    · exact hsym0
  rw [decFire_silence cfg rd _ rfl, if_neg hbits, if_pos hon]
  simp only [afterBits, insideBit, Dec.mk.injEq, true_and, and_true]
  omega

/-- The OFF part of a data bit appends the bit: T9 for a 0, T10 for a 1, whose count is outside T9's window
(R7 clause (e)). -/
theorem decFire_bitOff (hp : paramsOk cfg = true) (hrd : HoldsWave cfg c k rd) {i : Nat} (hi : i < 32) :
    (decFsm cfg rd).fire (insideBit c i) = afterBits c (i + 1) := by
  obtain ⟨-, -, -, -, -, -, -, hoff0, hoff1, hnot0, -⟩ := (paramsOk_iff cfg).mp hp
  have hinterval : ∀ w, inW (measured cfg rd (insideBit c i)) w = true ↔ _ := fun w =>
    inW_interval (w := w) hp hrd (show 3 + 2 * i < 66 by omega) (wave_data cfg c hi).2
  have hcode : appendBit (insideBit c i).code (wireBit c i) = c >>> (32 - (i + 1)) := by
    rw [insideBit, show 32 - i = 31 - i + 1 by omega, show 32 - (i + 1) = 31 - i by omega]
    exact appendBit_ushiftRight c (31 - i)
  have hnext : { insideBit c i with
      code := appendBit (insideBit c i).code (wireBit c i), bits := (insideBit c i).bits - 1,
      pos := (insideBit c i).pos + 1, rem := (insideBit c i).rem - 1, state := .symbolSilence } =
      afterBits c (i + 1) := by
    rw [hcode]
    simp only [afterBits, insideBit, Dec.mk.injEq, true_and, and_true]
    omega
  rw [decFire_pulse cfg rd _ rfl, ← hnext]
  cases hb : wireBit c i <;> simp only [hb, if_true, if_false, Bool.false_eq_true] at hinterval
  · rw [if_pos ((hinterval _).mpr hoff0)]
  · rw [if_neg (mt (hinterval _).mp hnot0), if_pos ((hinterval _).mpr hoff1)]

/-- After any number of data bits the run still ends where it would have ended. -/
theorem decRun_afterBits (hp : paramsOk cfg = true) (hrd : HoldsWave cfg c k rd) :
    ∀ {i : Nat}, i ≤ 32 → decRun cfg rd 67 = decDrive cfg rd 67 (afterBits c i)
  | 0, _ => by
    rw [decRun, decDrive_fire cfg rd (by decide) (by decide), decFire_lead hp hrd,
      decDrive_fire cfg rd (by simp only; omega) (by simp only; omega), decFire_leadOff hp hrd]
  | i + 1, hi => by
    rw [decRun_afterBits hp hrd (i := i) (by omega),
      decDrive_fire cfg rd (by simp only [afterBits]; omega) (by simp only [afterBits]; omega),
      decFire_bitOn hp hrd hi,
      decDrive_fire cfg rd (by simp only [insideBit]; omega) (by simp only [insideBit]; omega),
      decFire_bitOff hp hrd hi]

/-- After 32 bits one edge remains and the code is the command. -/
theorem decRun_wave (hp : paramsOk cfg = true) (hrd : HoldsWave cfg c k rd) :
    decRun cfg rd 67 = ⟨.symbolSilence, 66, 1, c, 0, false⟩ := by
  have hcode : c >>> (32 - 32) = c := BitVec.ushiftRight_zero c
  rw [decRun_afterBits hp hrd (Nat.le_refl 32), decDrive_done cfg rd 67 (Nat.lt_succ_self 1), afterBits, hcode]

end Transmitted

/-- Settles O29: by `decRun_wave`; a command of 0 is the error of R106. -/
theorem transmittedFrameDecodesToItsCode : Obligations.TransmittedFrameDecodesToItsCode := by
  intro s c k hp hproc hrd
  exact exec_decRun_frame hproc (by decide) (decRun_wave hp hrd) (by simp [decFrame, errFlag])

end Sys2Proof.Machine
end

section
/-! More about the decoder's and the framer's rows by themselves (R131, R156 to R198; log entries 12 and 13): which
one a fire is, and when a row does nothing. -/

namespace Sys2Proof.Machine

/-! ### The decoder's rows -/

/-- The eleven instructions of the decoder's rows. -/
theorem mem_decRows_iff {i : Instr} :
    i ∈ [Instr.t1, .t2, .t3, .t4, .t5, .t6, .t7, .t8, .t9, .t10, .t11] ↔ ∃ r : DecRow, i = r.instr := by
  refine ⟨fun h => ?_, fun ⟨r, hr⟩ => by rw [hr]; cases r <;> decide⟩
  have hlist : [Instr.t1, .t2, .t3, .t4, .t5, .t6, .t7, .t8, .t9, .t10, .t11] =
      [DecRow.t1, .t2, .t3, .t4, .t5, .t6, .t7, .t8, .t9, .t10, .t11].map DecRow.instr := rfl
  rw [hlist, List.mem_map] at h
  obtain ⟨r, -, hr⟩ := h
  exact ⟨r, hr.symm⟩

/-- Settles O17: some row is always selected; it does what the fire does, and the others nothing. -/
theorem decoderFireIsExactlyOneRow : Obligations.DecoderFireIsExactlyOneRow := by
  intro s hproc h2 hpos
  have hrange := decOutOfRange_of_lt hpos
  obtain ⟨r, hsel⟩ := Option.isSome_iff_exists.mp (decSelect_isSome s.cfg (edgeAt s) s.dec)
  obtain ⟨htaken, hothers⟩ := exec_decRow_of_select hproc h2 hrange hsel rfl
  refine ⟨r.instr, mem_decRows_iff.mpr ⟨r, rfl⟩, _, htaken, exec_fsmFire_decoder hproc h2 hrange,
    (decFire_edges s.cfg (edgeAt s) s.dec h2).1, fun j hj hne => ?_⟩
  obtain ⟨q, rfl⟩ := mem_decRows_iff.mp hj
  exact hothers q fun hq => hne (congrArg DecRow.instr hq)

/-- A decoder row of another state, or with fewer than two edges remaining, is skipped. -/
theorem exec_decRow_skipped {s : State} {r : DecRow} (hproc : s.txProc = .idle)
    (h : s.dec.state ≠ (decFsm s.cfg (edgeAt s)).src r ∨ s.dec.rem < 2) : exec r.instr s = .next s := by
  rw [exec_decRow, decTransition, hostSide_idle hproc, if_pos (h.symm.imp_right Ne.symm)]

/-- A framer row that the table does not select does nothing, whatever the count is. -/
theorem exec_rxRow_not_selected {s : State} {r : RxRow} (hproc : s.txProc = .idle)
    (hsel : framerFsm.select s ≠ some r) : exec r.instr s = .next s := by
  have hrange : ¬ (r = .f6 ∧ framerOutOfRange s = true) := by
    rintro ⟨rfl, hout⟩
    simp [framerOutOfRange, hsel] at hout
  rw [exec_rxRow, framerTransition, hostSide_idle hproc, if_neg hrange, Fsm.tryRow, if_neg hsel]

/-- Settles O18: a row is skipped by its from-state, a fire of the decoder by the remaining edges. -/
theorem rowsOfOtherStatesDoNothing : Obligations.RowsOfOtherStatesDoNothing := by
  intro s hproc
  have hdec : ∀ r : DecRow, s.dec.state ≠ (decFsm s.cfg (edgeAt s)).src r ∨ s.dec.rem < 2 →
      exec r.instr s = .next s := fun r => exec_decRow_skipped hproc
  have hrx : ∀ r : RxRow, s.rxState ≠ framerFsm.src r → exec r.instr s = .next s :=
    fun r h => exec_rxRow_not_selected hproc fun hsel => h (Fsm.select_spec hsel).2.1.symm
  have hfire : s.dec.rem < 2 → exec (.fsmFire .decoder) s = .next s := fun hfew =>
    (hostSide_idle hproc _).trans (if_pos hfew)
  exact ⟨fun h => ⟨hdec .t1 h, hdec .t2 h⟩, fun h => ⟨hdec .t3 h, hdec .t4 h, hdec .t5 h⟩,
    fun h => ⟨hdec .t6 h, hdec .t7 h, hdec .t8 h⟩, fun h => ⟨hdec .t9 h, hdec .t10 h, hdec .t11 h⟩, hfire,
    hrx .f1, fun h => ⟨hrx .f2 h, hrx .f3 h⟩, fun h => ⟨hrx .f4 h, hrx .f5 h, hrx .f6 h⟩⟩

/-- Settles O23: T6 is selected before any duration is looked at. -/
theorem silenceRowEndsTheFrame : Obligations.SilenceRowEndsTheFrame := by
  intro s hproc hstate h2 hbits
  have hsel := decSelect_silence s.cfg (edgeAt s) s.dec hstate
  have hfire := decFire_silence s.cfg (edgeAt s) s.dec hstate
  rw [if_pos hbits] at hsel hfire
  obtain ⟨htaken, hothers⟩ :=
    exec_decRow_of_select hproc h2 (decOutOfRange_of_bits_eq_zero hstate hbits) hsel hfire
  exact ⟨htaken, hothers .t7 (by decide), hothers .t8 (by decide)⟩

/-- Settles O25: T8 and T11 are the last rows of their states, selected where every window before them fails. -/
theorem symbolNoiseAborts : Obligations.SymbolNoiseAborts := by
  intro s hproc h2 hpos
  have hrange := decOutOfRange_of_lt hpos
  refine ⟨fun hstate hbits hon => ?_, fun hstate hzero hone => ?_⟩
  · have hsel := decSelect_silence s.cfg (edgeAt s) s.dec hstate
    have hfire := decFire_silence s.cfg (edgeAt s) s.dec hstate
    rw [← inW_measured_iff] at hon
    rw [if_neg hbits, if_neg hon] at hsel hfire
    obtain ⟨htaken, hothers⟩ := exec_decRow_of_select hproc h2 hrange hsel hfire
    exact ⟨htaken, hothers .t6 (by decide), hothers .t7 (by decide)⟩
  · have hsel := decSelect_pulse s.cfg (edgeAt s) s.dec hstate
    have hfire := decFire_pulse s.cfg (edgeAt s) s.dec hstate
    rw [← inW_measured_iff] at hzero hone
    rw [if_neg hzero, if_neg hone] at hsel hfire
    obtain ⟨htaken, hothers⟩ := exec_decRow_of_select hproc h2 hrange hsel hfire
    exact ⟨htaken, hothers .t9 (by decide), hothers .t10 (by decide)⟩

/-! ### The framer's rows -/

theorem newEdges_iff (s : State) : newEdges s = true ↔ BitVec.ofNat 32 s.ecount ≠ s.rxLastCount := by
  simp [newEdges]

theorem timedOut_iff (s : State) :
    timedOut s = true ↔ s.cfg.rxTimeoutMs < (s.ms - s.rxLastTime).toNat := by
  rw [timedOut, decide_eq_true_eq]; rfl

/-- `RX.FIRE` is the selected row by itself, F6 with a count out of range among them. -/
theorem exec_rxFire_eq_row {s : State} {r : RxRow} (hproc : s.txProc = .idle)
    (hsel : framerFsm.select s = some r) : exec .rxFire s = exec r.instr s := by
  cases hrange : framerOutOfRange s with
  | false =>
    obtain ⟨htaken, hfire, -⟩ := exec_rxRow_of_select hproc hrange hsel
    exact hfire.trans htaken.symm
  | true =>
    obtain rfl : r = .f6 := Classical.byContradiction fun hr => by
      rw [framerOutOfRange_of_select hsel hr] at hrange
      cases hrange
    rw [exec_rxFire, exec_rxRow, fireFramer, framerTransition, if_pos hrange, if_pos ⟨rfl, hrange⟩]

/-- With no row selected `RX.FIRE` does nothing (R198). -/
theorem exec_rxFire_of_none {s : State} (hproc : s.txProc = .idle) (hsel : framerFsm.select s = none) :
    exec .rxFire s = .next s := by
  have hrange : framerOutOfRange s = false := by simp [framerOutOfRange, hsel]
  rw [exec_rxFire, fireFramer, hostSide_idle hproc, hrange, Fsm.fire, hsel]
  rfl

/-- In each state of the framer the conditions of R192 to R197 select the row. -/
theorem framerSelect_rows {s : State} :
    (s.rxState = .idle → s.rxEnabled = true → newEdges s = true → framerFsm.select s = some .f3) ∧
    (s.rxState = .wait → s.rxEnabled = true → newEdges s = true → framerFsm.select s = some .f5) ∧
    (s.rxState = .wait → s.rxEnabled = true → newEdges s = false → timedOut s = true →
      framerFsm.select s = some .f6) := by
  refine ⟨fun hstate hon hnew => ?_, fun hstate hon hnew => ?_, fun hstate hon hnew hlate => ?_⟩
  · simp [framerSelect_idle hstate, hon, hnew]
  · simp [framerSelect_wait hstate, hon, hnew]
  · simp [framerSelect_wait hstate, hon, hnew, hlate]

/-- A disabled receiver takes neither row that notes edges: F2 and F4 come before them. -/
theorem framerSelect_disabled {s : State} (hoff : s.rxEnabled = false) :
    framerFsm.select s ≠ some .f3 ∧ framerFsm.select s ≠ some .f5 := by
  cases hstate : s.rxState
  · simp [framerSelect_off hstate, hoff]
  · simp [framerSelect_idle hstate, hoff]
  · simp [framerSelect_wait hstate, hoff]

/-- Settles O34: the action of F3 and of F5 is `noteEdges`. -/
theorem framerNotesNewEdges : Obligations.FramerNotesNewEdges := by
  intro s hproc hcount
  have hnew := (newEdges_iff s).mpr hcount
  obtain ⟨hf3, hf5, -⟩ := framerSelect_rows (s := s)
  refine ⟨fun hidle hon => ?idle, fun hwait hon => ?wait, fun hoff => ?disabled⟩
  case idle =>
    have hsel := hf3 hidle hon hnew
    exact (exec_rxRow_of_select hproc (framerOutOfRange_of_select hsel (by decide)) hsel).1
  case wait =>
    have hsel := hf5 hwait hon hnew
    obtain ⟨htaken, -, hothers⟩ :=
      exec_rxRow_of_select hproc (framerOutOfRange_of_select hsel (by decide)) hsel
    exact ⟨htaken, hothers .f6 (by decide)⟩
  case disabled =>
    obtain ⟨hnot3, hnot5⟩ := framerSelect_disabled hoff
    exact ⟨exec_rxRow_not_selected hproc hnot3, exec_rxRow_not_selected hproc hnot5⟩

/-- Settles O35: in `WAIT` a disable selects F4 before F5 and F6 are tried. -/
theorem framerAbandonsFrame : Obligations.FramerAbandonsFrame := by
  intro s hproc hwait hoff
  have hsel : framerFsm.select s = some .f4 := by rw [framerSelect_wait hwait, if_pos hoff]
  obtain ⟨htaken, -, hothers⟩ := exec_rxRow_of_select hproc (framerOutOfRange_of_select hsel (by decide)) hsel
  exact ⟨htaken, hothers .f5 (by decide), hothers .f6 (by decide)⟩

/-- Settles O36: F6 stores the frame of the run that `DEC.RUN` over the noted count makes. -/
theorem framerEndsFrame : Obligations.FramerEndsFrame := by
  intro s hproc hwait hon hcount hle hlate
  have hnew : newEdges s = false := Bool.eq_false_iff.mpr fun h => (newEdges_iff s).mp h hcount
  have hsel := framerSelect_rows.2.2 hwait hon hnew ((timedOut_iff s).mpr hlate)
  obtain ⟨htaken, -, -⟩ := exec_rxRow_of_select hproc (framerOutOfRange_of_le hle) hsel
  exact ⟨_, _, htaken, exec_decRun hproc hle, rfl, rfl, rfl, rfl⟩

/-- Settles O37: each clause is a row that is selected, or none. -/
theorem rxFireTakesFirstRow : Obligations.RxFireTakesFirstRow := by
  intro s hproc new late
  have hnew : newEdges s = true ↔ new := newEdges_iff s
  have hold : ¬new → newEdges s = false := fun h => Bool.eq_false_iff.mpr (mt hnew.mp h)
  have hlate : timedOut s = true ↔ late := timedOut_iff s
  obtain ⟨hf3, hf5, hf6⟩ := framerSelect_rows (s := s)
  refine ⟨rfl, fun hstate hon => ?f1, fun hstate hoff => ?off, fun hstate hoff => ?f2,
    fun hstate hon h => exec_rxFire_eq_row hproc (hf3 hstate hon (hnew.mpr h)), fun hstate hon h => ?idle,
    fun hstate hoff => ?f4, fun hstate hon h => exec_rxFire_eq_row hproc (hf5 hstate hon (hnew.mpr h)),
    fun hstate hon h hl => exec_rxFire_eq_row hproc (hf6 hstate hon (hold h) (hlate.mpr hl)),
    fun hstate hon h hl => ?wait⟩
  case f1 => exact exec_rxFire_eq_row (r := .f1) hproc (by rw [framerSelect_off hstate, if_pos hon])
  case off => exact exec_rxFire_of_none hproc (by simp [framerSelect_off hstate, hoff])
  case f2 => exact exec_rxFire_eq_row (r := .f2) hproc (by rw [framerSelect_idle hstate, if_pos hoff])
  case idle => exact exec_rxFire_of_none hproc (by simp [framerSelect_idle hstate, hon, hold h])
  case f4 => exact exec_rxFire_eq_row (r := .f4) hproc (by rw [framerSelect_wait hstate, if_pos hoff])
  case wait =>
    have hearly : timedOut s = false := Bool.eq_false_iff.mpr (mt hlate.mp hl)
    exact exec_rxFire_of_none hproc (by simp [framerSelect_wait hstate, hon, hold h, hearly])

/-- With the count in range `RX.FIRE` completes (R198). -/
theorem exec_rxFire_of_le {s : State} (hproc : s.txProc = .idle) (h : s.rxLastCount.toNat ≤ edgeCap) :
    exec .rxFire s = .next (framerFsm.fire s) := fireFramer_of_le hproc h

/-- Settles O38: the structural invariant keeps the count in range, and a fire's frame is `framerFire_frame`. -/
theorem rxFireCompletes : Obligations.RxFireCompletes := by
  intro s hproc hs
  obtain ⟨hcfg, hen, hms, hstate, hcode, htx, hseg, hstart, hcarrier, hres, hinbox, -, -⟩ := framerFire_frame s
  exact ⟨_, exec_rxFire_of_le hproc hs.last_le, hcfg, hen, hms, hstate, hcode, htx, hseg, hstart, hcarrier, hres,
    hinbox⟩

/-- Where no edge is new a fire leaves the noted time: only F3 and F5 write it. -/
theorem framerFire_rxLastTime {s : State} (hold : newEdges s = false) :
    (framerFsm.fire s).rxLastTime = s.rxLastTime := by
  obtain ⟨r, hsel, hfire⟩ | ⟨-, hsame⟩ := framerFsm.fire_cases s
  · have hguard := (Fsm.select_spec hsel).2.2
    rw [hfire]
    cases r with
    | f3 | f5 => cases hold.symm.trans hguard
    | f1 | f2 | f4 | f6 => rfl
  · rw [hsame]

/-- Settles O39: at the full buffer an `EDGE` is the identity, and the noted count is the edge count, so no edge is
new to the next fire. -/
theorem saturatedEdgesAreInvisible : Obligations.SaturatedEdgesAreInvisible := by
  intro s j hproc hfull hseen
  have hedges : edges j s = s := Function.iterate_fixed (edgeEvent_eq_self (.inr hfull.ge)) j
  have hold : newEdges s = false := by simp [newEdges, hfull, hseen]
  have hfire : exec .rxFire (edges j s) = .next (framerFsm.fire s) := by
    rw [hedges]
    exact exec_rxFire_of_le hproc (by rw [hseen]; decide)
  refine ⟨hedges, by rw [exec_edge, edges_succ], _, hfire, framerFire_rxLastTime hold, fun hwait hon hlate => ?_⟩
  rw [Fsm.fire_of_select (framerSelect_rows.2.2 hwait hon hold ((timedOut_iff s).mpr hlate))]
  rfl

end Sys2Proof.Machine
end

section
/-! The operations that answer at once: the host's clear of the frame, the binding of an engine's table, the wire
symbols (R90 to R92, R133, R134, R203, R233), and the host's side during an emission (R238). -/

namespace Sys2Proof.Machine

/-- Settles O12: outside an emission the clear is the next state. -/
theorem rxResetcodeClearsTheFrame : Obligations.RxResetcodeClearsTheFrame := fun _ hproc => hostSide_idle hproc _

/-! ### The engine's operations -/

theorem exec_fsmInit_own {s : State} (hproc : s.txProc = .idle) (m : FsmId) :
    exec (.fsmInit m .own) s = .next (initFsm m s) := hostSide_idle hproc _

/-- Settles O16: binding an own table is `initFsm_eq`, whose register is the initial state of the table. -/
theorem fsmInitSetsFirstFromState : Obligations.FsmInitSetsFirstFromState := fun s hproc =>
  ⟨(exec_fsmInit_own hproc .framer).trans (by rw [initFsm_eq]),
    (exec_fsmInit_own hproc .decoder).trans (by rw [initFsm_eq]),
    (exec_fsmInit_own hproc .transmitter).trans (by rw [initFsm_eq]),
    framerFsm_initial, decFsm_initial s.cfg (edgeAt s), txFsm_initial, fun _ => hostSide_idle hproc _⟩

/-- With no code pending the three ways to fire the transmitter do nothing (R233). -/
theorem exec_txFire_nothing {s : State} (hproc : s.txProc = .idle) (hcode : s.txCode = 0) :
    exec .txFire s = .next s ∧ exec .x1 s = .next s ∧ exec (.fsmFire .transmitter) s = .next s := by
  have hfire : txFsm.fire s = s := by rw [txFire_eq, if_pos hcode]
  have hrow : txFsm.tryRow .x1 s = s := (txTryRow_eq s).trans hfire
  have hnext : hostSide s (.next (txFsm.fire s)) = .next s := by rw [hostSide_idle hproc, hfire]
  have hx1 : hostSide s (.next (txFsm.tryRow .x1 s)) = .next s := by rw [hostSide_idle hproc, hrow]
  exact ⟨hnext, hx1, hnext⟩

/-- Settles O41: a release is the identity on the state. -/
theorem idleFireAndDestroyDoNothing : Obligations.IdleFireAndDestroyDoNothing := fun _ hproc =>
  ⟨exec_txFire_nothing hproc, fun _ => hostSide_idle hproc _⟩

/-! ### The wire symbols -/

/-- The inputs of a symbol that arrives, written out. -/
theorem receiveBurst_eq (on off : Nat) (s : State) : receiveBurst on off s = { s with
    inbox := .op (encode .edge) :: (List.replicate on (.op (encode .tick))
      ++ .op (encode .edge) :: (List.replicate off (.op (encode .tick)) ++ s.inbox)) } := by
  simp only [receiveBurst, intervalCmds, eventCmd, List.cons_append, List.append_assoc]

/-- Either side of a symbol with these counts. -/
theorem wireBurst_sides (on off : Nat) (s : State) :
    (s.txProc = .idle → wireBurst .send on off s = .next { s with
      txProc := .burst on off, txSeg := 0, txSegStart := s.tick, carrier := true }) ∧
    wireBurst .receive on off s = .next { s with
      inbox := .op (encode .edge) :: (List.replicate on (.op (encode .tick))
        ++ .op (encode .edge) :: (List.replicate off (.op (encode .tick)) ++ s.inbox)) } :=
  ⟨fun hproc => hostSide_idle hproc _, congrArg _ (receiveBurst_eq on off s)⟩

/-- Settles O45: each of the four symbols is `wireBurst` with its nominal counts. -/
theorem wireSymbols : Obligations.WireSymbols := by
  intro s i on off h
  simp only [List.mem_cons, Prod.mk.injEq, List.not_mem_nil, or_false] at h
  obtain ⟨rfl, rfl, rfl⟩ | ⟨rfl, rfl, rfl⟩ | ⟨rfl, rfl, rfl⟩ | ⟨rfl, rfl, rfl⟩ := h <;> exact wireBurst_sides _ _ s

/-- Settles O46: the free times are picked inside the windows, which a well-formed parameter set makes non-empty. -/
theorem repeatFrameArrives : Obligations.RepeatFrameArrives := by
  intro s hp
  obtain ⟨-, hwindows, -⟩ := (paramsOk_iff s.cfg).mp hp
  refine ⟨repeatLeadOn s, repeatLeadOff s, repeatFinalOn s, pickIn_mem _ _ (hwindows _ (by simp)).1,
    pickIn_mem _ _ (hwindows _ (by simp)).1, pickCount_mem _ _, _, rfl, ?_⟩
  simp only [intervalCmds, eventCmd, List.cons_append, List.append_assoc, List.nil_append]

/-! ### The blocked host -/

/-- Every operation of the host's side asks first whether an emission is in progress. -/
theorem exec_blocked {s : State} (hproc : s.txProc ≠ .idle) {i : Instr} (hi : hostSideInstr i = true) :
    exec i s = .refused .hostBlocked := by
  cases i with
  | tick | mstick | edge | repeatFrame | nowMillis | currentTick | startTimer | stopTimer | setCarrier
  | getEdgeCount | getEdgeBuffer | clearEdgeBuffer | enableCapture => cases hi
  | prologue side | sym0 side | sym1 side | epilogue side =>
    obtain rfl : side = .send := of_decide_eq_true hi
    exact hostSide_blocked hproc _
  | fsmFire m => cases m <;> exact hostSide_blocked hproc _
  | rxFire | rxSeten | rxGetcode | rxGetrep | rxGeterr | rxResetcode | rxIsactive | txFire | txSetcode | txIsactive
  | t1 | t2 | t3 | t4 | t5 | t6 | t7 | t8 | t9 | t10 | t11 | f1 | f2 | f3 | f4 | f5 | f6 | x1
  | fsmInit | fsmDestroy | decRun | txEncode | txBurst => exact hostSide_blocked hproc _

/-- Settles O14: the events have no such question. -/
theorem hostIsBlockedDuringEmission : Obligations.HostIsBlockedDuringEmission := fun s hproc =>
  ⟨fun _ => exec_blocked hproc, exec_tick_ticks 0 s, rfl, rfl⟩

end Sys2Proof.Machine
end

section
/-! The clocks, the capture and the primitives (R261 to R272), and the state after `RESET` (R320 to R325). -/

namespace Sys2Proof.Machine

/-- Settles O47: outside an emission a `TICK` is `tickEvent_idle`, and a successor counts modulo `2 ^ TICK_W`. -/
theorem clocksCountModulo : Obligations.ClocksCountModulo := by
  intro s
  refine ⟨exec_tick_ticks 0 s, fun hproc _ => ?_, _, rfl, rfl, BitVec.toNat_add s.ms 1⟩
  have htick : exec .tick s = .next { s with
      tick := if s.tickRun = true then tickSucc s.cfg.tickW s.tick else s.tick } :=
    congrArg _ (tickEvent_idle hproc)
  refine ⟨_, htick, rfl, fun hrun => ?_, fun hstop => ?_⟩
  · simp only [hrun, if_true]
    exact tickSucc_toNat s.cfg.tickW s.tick
  · simp only [hstop, Bool.false_eq_true, if_false]

/-- Settles O48: by `Memory.read_write`; the era of the free values stays, so every other entry reads as before. -/
theorem edgeStoresTimestamp : Obligations.EdgeStoresTimestamp := by
  intro s hopen hroom
  have hstore : edgeEvent s =
      { s with ebuf := Memory.write s.ebuf s.ecount s.tick, ecount := s.ecount + 1 } := if_pos ⟨hopen, hroom⟩
  refine ⟨_, exec_edge s, ?_⟩
  rw [hstore]
  refine ⟨rfl, edgeAt_listed ?_, fun i hi => ?_, rfl⟩
  · exact (Memory.read_write _ _ _ _).trans (if_pos rfl)
  · simp only [edgeAt, Memory.read_write, if_neg hi]

/-- Settles O50: each reader is one write of the result port; a count of at most 67 is held by 32 bits. -/
theorem readingPrimitives : Obligations.ReadingPrimitives := by
  refine fun s => ⟨rfl, rfl, rfl, rfl, fun hs => ?_⟩
  have hle : s.ecount ≤ 67 := hs.ecount_le
  exact ⟨by rw [BitVec.toNat_ofNat, Nat.mod_eq_of_lt (by omega)], hle⟩

/-- Settles O51: each writer is its update of the state; what a clear leaves in the buffer is not said. -/
theorem writingPrimitives : Obligations.WritingPrimitives := fun _ _ => ⟨rfl, rfl, rfl, rfl, _, rfl, rfl, rfl⟩

/-- Settles O53: the step is the RESET event on what still waits. -/
theorem resetEventValues : Obligations.ResetEventValues := fun _ _ hp hin =>
  ⟨_, step_of_reset hp hin, rfl, rfl, rfl, rfl, rfl, rfl, rfl, rfl, rfl, rfl, rfl, rfl, rfl, rfl, rfl, rfl⟩

/-- Settles O54: the capture is closed, the counter stopped, the receiver disabled in `OFF` and no code pending. -/
theorem resetIsInert : Obligations.ResetIsInert := by
  intro cfg tk ms s
  have hclosed : edgeEvent s = s := edgeEvent_eq_self (.inl rfl)
  have hstopped : tickEvent s = s := tickEvent_idle rfl
  have hnorow : framerFsm.select s = none := framerSelect_off rfl
  exact ⟨congrArg _ hclosed, congrArg _ hstopped, exec_rxFire_of_none rfl hnorow, (exec_txFire_nothing rfl rfl).1, rfl⟩

end Sys2Proof.Machine
end
